-- ==== Sys2Proof/Word.lean ====
section
/-!
DEFINITION. The word types of the block (00_scope.md R11, R12): bytes, 7-bit addresses, 4-bit masks and
7-bit dispatch words. Bit 0 is the least significant bit. Buffer addresses, lengths and the cursor have
parametric widths (R10) and are natural numbers with their bounds written where they are computed.
-/

namespace Sys2Proof

/-- A register, a buffer element or the address byte (20_memory.md R63). -/
abbrev Byte := BitVec 8

/-- A peer address or an own address (00_scope.md R11). -/
abbrev Addr7 := BitVec 7

/-- A 4-bit value: the error mask (30_encoding.md R83) or a command opcode (R89). -/
abbrev Nibble := BitVec 4

/-- The dispatch word `r d s a t x p` (30_encoding.md R85). -/
abbrev DispatchWord := BitVec 7

end Sys2Proof
end

