-- ==== Sys2Proof/Config.lean ====
section
/-!
DEFINITION. What the spec leaves to the implementation: the named parameters of 00_scope.md R10 as one record
of plain data (the model takes them as an argument: State holds the record and no step changes it), and the
free values, opaque constants about which nothing can be proved.
-/

namespace Sys2Proof

/-- The `TIMING` values of 00_scope.md R10: what `INIT` writes into `FREQR`, `CCR` and `TRISER`. -/
structure Timing where
  freq : Byte
  ccr : Byte
  trise : Byte
  deriving DecidableEq, Repr, Inhabited

/-- A run of addresses of the caller's data memory that the launch provides (20_memory.md R68). -/
structure Region where
  base : Nat
  size : Nat
  deriving DecidableEq, Repr

/-- The implementation parameters (00_scope.md R10) and the launch memory (60_exceptions.md R217). -/
structure Config where
  /-- `LEN_BITS`, the width of lengths and of the cursor. -/
  lenBits : Nat
  /-- `ADDR_BITS`, the width of a buffer address. -/
  addrBits : Nat
  /-- `REG_BASE`, the address of the register block. -/
  regBase : Nat
  /-- `INIT_OWN_ADDR`, the own address that `INIT` writes. -/
  ownAddr : Addr7
  /-- `TIMING`. -/
  timing : Timing
  /-- What `FREQR`, `CCR` and `TRISER` hold at reset: unspecified (10_state.md R52). -/
  powerUp : Timing
  /-- The memory the launch provides. -/
  launch : List Region
  deriving DecidableEq, Repr

/-- The one bound the spec puts on a parameter: `LEN_BITS` is at least 8 (00_scope.md R10). -/
def Config.valid (c : Config) : Bool := decide (8 ≤ c.lenBits)

/-- The number of values of a length or of the cursor, `2^LEN_BITS` (10_state.md R27). -/
def Config.lenSpan (c : Config) : Nat := 2 ^ c.lenBits

/-- The number of buffer addresses, `2^ADDR_BITS` (20_memory.md R61). -/
def Config.addrSpan (c : Config) : Nat := 2 ^ c.addrBits

/-- Free: `INIT_OWN_ADDR` at the reset configuration (92_eei_decisions.md D16). -/
opaque Config.freeOwnAddr : Addr7

/-- Free: `TIMING` at the reset configuration (92_eei_decisions.md D16). -/
opaque Config.freeTiming : Timing

/-- Free: `REG_BASE` at the reset configuration (92_eei_decisions.md D9). -/
opaque Config.freeRegBase : Nat

/-- Free: what the three `TIMING` registers hold at reset (93_implementation_defined.md U8, any value). -/
opaque Config.freePowerUp : Timing

/-- Free: the byte an address of the caller's memory holds before anything is written to it. -/
opaque Config.freeByte : Nat → Byte

/-- Free: the environment's last address byte before any address byte was written (10_state.md R53). -/
opaque Config.freeAddrByte : Byte

/-- The configuration of the reset state. DESIGN CHOICE (log 2): the widths of 95_test_vectors.md section 0;
every other parameter is a free value; the launch provides the whole address space. -/
def Config.launchDefault : Config where
  lenBits := 8
  addrBits := 16
  regBase := Config.freeRegBase
  ownAddr := Config.freeOwnAddr
  timing := Config.freeTiming
  powerUp := Config.freePowerUp
  launch := [⟨0, 65536⟩]

end Sys2Proof
end

