-- ==== Sys2Proof/Syntax.lean ====
section
/-!
DEFINITION. The operations of the block, one constructor per row of spec/opcode_table.json, and the encoded
forms they are read from (30_encoding.md R80): the command word, the dispatch word, the two epilogue selectors
and the environment's lines (30_encoding.md R93).
-/

namespace Sys2Proof

/-- `ctx.role` (10_state.md R21). -/
inductive Role where
  | slave
  | master
  deriving DecidableEq, Repr

/-- `ctx.direction` (10_state.md R22). -/
inductive Direction where
  | write
  | read
  deriving DecidableEq, Repr

/-- The controller registers (10_state.md R31). -/
inductive RegName where
  | cr1 | cr2 | freqr | oar | dr | sr1 | sr2 | sr3 | itr | ccr | triser
  deriving DecidableEq, Repr

/-- The four error flags of `SR2`, in bit order (30_encoding.md R83). -/
inductive ErrFlag where
  | berr | arlo | af | ovr
  deriving DecidableEq, Repr

/-- The host commands, as tags of trace events (10_state.md R45). -/
inductive Command where
  | init | cfgSlave | armWrite | armRead
  deriving DecidableEq, Repr

/-- The eleven arms of the dispatch table (30_encoding.md R86). -/
inductive Arm where
  | mStart | mAddr | mTx | mTxUnexpected | mTxIdle | mRx | mRxIdle
  | sAddr | sRx | sTx | sIdle
  deriving DecidableEq, Repr

/-- Every operation of spec/opcode_table.json: the host commands, the engine's arms, the two epilogue arms and
the moves of the bus environment. -/
inductive Instr where
  /-- `INIT` (40_host_commands.md R101). -/
  | init
  /-- `CFG_SLAVE address, buffer, capacity` (40_host_commands.md R104). -/
  | cfgSlave (address : Addr7) (buffer capacity : Nat)
  /-- `ARM_WRITE peer, buffer, length` (40_host_commands.md R106). -/
  | armWrite (peer : Addr7) (buffer length : Nat)
  /-- `ARM_READ peer, buffer, length` (40_host_commands.md R106). -/
  | armRead (peer : Addr7) (buffer length : Nat)
  /-- `M_START` (41_master_branch.md R131). -/
  | mStart
  /-- `M_ADDR` (41_master_branch.md R132). -/
  | mAddr
  /-- `M_TX` (41_master_branch.md R134). -/
  | mTx
  /-- `M_TX_UNEXPECTED` (41_master_branch.md R137). -/
  | mTxUnexpected
  /-- `M_TX_IDLE` (41_master_branch.md R138). -/
  | mTxIdle
  /-- `M_RX` (41_master_branch.md R139). -/
  | mRx
  /-- `M_RX_IDLE` (41_master_branch.md R143). -/
  | mRxIdle
  /-- `S_ADDR` (42_slave_branch.md R161). -/
  | sAddr
  /-- `S_RX` (42_slave_branch.md R162). -/
  | sRx
  /-- `S_TX` (42_slave_branch.md R165). -/
  | sTx
  /-- `S_IDLE` (42_slave_branch.md R167). -/
  | sIdle
  /-- `EPI_ERR` with the mask `e` its phase has read (43_epilogue.md R181). -/
  | epiErr (e : Nibble)
  /-- `EPI_STOP` (43_epilogue.md R185). -/
  | epiStop
  /-- `ENV STARTDONE` (44_bus_environment.md R192). -/
  | envStartdone
  /-- `ENV ADDRACK` (44_bus_environment.md R196). -/
  | envAddrack
  /-- `ENV ADDRNACK` (44_bus_environment.md R196). -/
  | envAddrnack
  /-- `ENV TXACK` (44_bus_environment.md R196). -/
  | envTxack
  /-- `ENV TXNACK` (44_bus_environment.md R196). -/
  | envTxnack
  /-- `ENV RXBYTE b` (44_bus_environment.md R195). -/
  | envRxbyte (b : Byte)
  /-- `ENV STOPDONE f`: `f` draws whether `STOPF` is set (44_bus_environment.md R193). -/
  | envStopdone (f : Bool)
  /-- `ENV BUSSTART` (44_bus_environment.md R194). -/
  | envBusstart
  /-- `ENV MATCH d`: `d` when the peer reads from this device (44_bus_environment.md R194). -/
  | envMatch (d : Bool)
  /-- `ENV PEERSTOP` (44_bus_environment.md R199). -/
  | envPeerstop
  /-- `ENV ERR k` (44_bus_environment.md R198). -/
  | envErr (k : ErrFlag)
  deriving DecidableEq, Repr

/-- A command word (30_encoding.md R89): a 4-bit opcode and three operands as the caller gives them, before
their widths are checked. `INIT` has no operands; its three fields are not read. -/
structure CmdWord where
  op : Nibble
  /-- `address` of `CFG_SLAVE`, `peer` of the arming commands. -/
  addr : Nat
  /-- `buffer`. -/
  buf : Nat
  /-- `capacity` of `CFG_SLAVE`, `length` of the arming commands. -/
  len : Nat
  deriving DecidableEq, Repr

/-- An `ENV` line (30_encoding.md R93) with its operand at the width the opcode table gives it. -/
inductive EnvWord where
  | startdone | addrack | addrnack | txack | txnack
  | rxbyte (b : BitVec 8)
  | stopdone (f : BitVec 1)
  | busstart
  | matched (d : BitVec 1)
  | peerstop
  | err (k : BitVec 2)
  deriving DecidableEq, Repr

/-- The encoded forms of 30_encoding.md R80 that select an operation, and the `ENV` lines of R93. -/
inductive Code where
  /-- A command word issued by the caller (30_encoding.md R89). -/
  | cmd (w : CmdWord)
  /-- The dispatch word (30_encoding.md R85). -/
  | dispatch (w : DispatchWord)
  /-- The selector of `EPI_ERR`: `SR2[3:0]` (30_encoding.md R88). -/
  | epiErr (e : Nibble)
  /-- The selector of `EPI_STOP`: the value of `SR1` (30_encoding.md R88). -/
  | epiStop (sr1 : Byte)
  /-- An environment line (30_encoding.md R93). -/
  | env (m : EnvWord)
  deriving DecidableEq, Repr

end Sys2Proof
end

