-- ==== Sys2Proof/WellFormed.lean ====
section
/-!
DEFINITION. Which operations a decoder can give: the operand widths of 30_encoding.md R91 (7-bit addresses by
their type; `buffer` and the counts against the parametric widths of 00_scope.md R10), and a mask that selects
`EPI_ERR` (30_encoding.md R88).
-/

namespace Sys2Proof

/-- A buffer address fits `ADDR_BITS` and a count fits `LEN_BITS` (30_encoding.md R91). -/
def Config.operandsFit (c : Config) (buffer count : Nat) : Bool :=
  decide (buffer < c.addrSpan) && decide (count < c.lenSpan)

/-- The operands of the operation fit their fields. -/
def Instr.wellFormed (c : Config) : Instr → Bool
  | .init => true
  | .cfgSlave _ buffer capacity => c.operandsFit buffer capacity
  | .armWrite _ buffer length => c.operandsFit buffer length
  | .armRead _ buffer length => c.operandsFit buffer length
  | .mStart => true
  | .mAddr => true
  | .mTx => true
  | .mTxUnexpected => true
  | .mTxIdle => true
  | .mRx => true
  | .mRxIdle => true
  | .sAddr => true
  | .sRx => true
  | .sTx => true
  | .sIdle => true
  | .epiErr e => e != 0#4
  | .epiStop => true
  | .envStartdone => true
  | .envAddrack => true
  | .envAddrnack => true
  | .envTxack => true
  | .envTxnack => true
  | .envRxbyte _ => true
  | .envStopdone _ => true
  | .envBusstart => true
  | .envMatch _ => true
  | .envPeerstop => true
  | .envErr _ => true

end Sys2Proof
end

