-- ==== Sys2Proof/Decode.lean ====
section
/-!
DEFINITION. The decoder of the encoded forms of 30_encoding.md (total, refusing by name) and, after it, the
encoder written from the same tables. Also the reading of a bare table word that the host asks for.
-/

namespace Sys2Proof

/-- Why a code selects no operation. -/
inductive DecodeError where
  /-- `Refused(ReservedCommand op)` (30_encoding.md R90). -/
  | reservedCommand (op : Nibble)
  /-- `Refused(OperandWidth)` (30_encoding.md R91). -/
  | operandWidth
  /-- The epilogue selector does not select its arm (30_encoding.md R88): no refusal, the arm just does not run. -/
  | notSelected
  deriving DecidableEq, Repr

/-! ### The command word (30_encoding.md R89 to R91) -/

/-- `address` or `peer`: a value of `0x80` or more is refused (30_encoding.md R91). -/
def decodeAddr7 (v : Nat) : Except DecodeError Addr7 :=
  if v < 128 then .ok (BitVec.ofNat 7 v) else .error .operandWidth

/-- The three operands with their widths checked (30_encoding.md R91); taken as given otherwise. -/
def decodeOperands (c : Config) (w : CmdWord) (make : Addr7 → Nat → Nat → Instr) : Except DecodeError Instr :=
  match decodeAddr7 w.addr with
  | .error e => .error e
  | .ok a => if c.operandsFit w.buf w.len then .ok (make a w.buf w.len) else .error .operandWidth

/-- `D = 0` is Write and `D = 1` is Read (30_encoding.md R84). -/
def Direction.ofBit (d : Bool) : Direction := if d then .read else .write

/-- The direction as the bit `D` (30_encoding.md R84). -/
def Direction.bit : Direction → Bool
  | .write => false
  | .read => true

/-- The arming command of a direction (30_encoding.md R89). -/
def Instr.arming (d : Direction) (peer : Addr7) (buffer length : Nat) : Instr :=
  match d with
  | .write => .armWrite peer buffer length
  | .read => .armRead peer buffer length

/-- Decoding `CMD` (30_encoding.md R90). -/
def decodeCmd (c : Config) (w : CmdWord) : Except DecodeError Instr :=
  if w.op = 0b0001#4 then .ok .init
  else if w.op = 0b0010#4 then decodeOperands c w .cfgSlave
  else if w.op &&& 0b1110#4 = 0b0100#4 then decodeOperands c w (.arming (.ofBit (w.op.getLsbD 0)))
  else .error (.reservedCommand w.op)

/-! ### The dispatch word (30_encoding.md R85 to R87) -/

/-- A row of the dispatch table (30_encoding.md R86). -/
structure DispatchRow where
  arm : Arm
  mask : DispatchWord
  pattern : DispatchWord
  deriving DecidableEq, Repr

/-- The row selects the word: `(W AND mask) = match`. -/
def DispatchRow.selects (r : DispatchRow) (w : DispatchWord) : Bool := w &&& r.mask == r.pattern

/-- The dispatch table of 30_encoding.md R86, in its order. -/
def dispatchTable : List DispatchRow :=
  [ ⟨.mStart, 0x50#7, 0x50#7⟩,
    ⟨.mAddr, 0x58#7, 0x48#7⟩,
    ⟨.mTx, 0x7C#7, 0x44#7⟩,
    ⟨.mTxUnexpected, 0x7D#7, 0x40#7⟩,
    ⟨.mTxIdle, 0x7D#7, 0x41#7⟩,
    ⟨.mRx, 0x7A#7, 0x62#7⟩,
    ⟨.mRxIdle, 0x7A#7, 0x60#7⟩,
    ⟨.sAddr, 0x48#7, 0x08#7⟩,
    ⟨.sRx, 0x4A#7, 0x02#7⟩,
    ⟨.sTx, 0x4E#7, 0x04#7⟩,
    ⟨.sIdle, 0x4E#7, 0x00#7⟩ ]

/-- The arm of a dispatch word: the first row that selects it. The rows cover all 128 words (30_encoding.md R87,
`dispatchTable_total` in Laws), so the last case is never taken. -/
def dispatchArm (w : DispatchWord) : Arm :=
  match dispatchTable.find? (·.selects w) with
  | some r => r.arm
  | none => .sIdle

/-- The operation of an arm. -/
def Arm.instr : Arm → Instr
  | .mStart => .mStart
  | .mAddr => .mAddr
  | .mTx => .mTx
  | .mTxUnexpected => .mTxUnexpected
  | .mTxIdle => .mTxIdle
  | .mRx => .mRx
  | .mRxIdle => .mRxIdle
  | .sAddr => .sAddr
  | .sRx => .sRx
  | .sTx => .sTx
  | .sIdle => .sIdle

/-! ### The epilogue selectors and the environment lines -/

/-- `EPI_ERR` runs when `e` is not `0b0000` (30_encoding.md R88). -/
def decodeEpiErr (e : Nibble) : Except DecodeError Instr :=
  if e = 0#4 then .error .notSelected else .ok (.epiErr e)

/-- `EPI_STOP` runs when `SR1.STOPF`, bit 4, is 1 (30_encoding.md R88). -/
def decodeEpiStop (sr1 : Byte) : Except DecodeError Instr :=
  if sr1.getLsbD 4 then .ok .epiStop else .error .notSelected

/-- The flag of an `SR2` bit index (30_encoding.md R83). -/
def ErrFlag.ofBits (k : BitVec 2) : ErrFlag :=
  if k = 0#2 then .berr else if k = 1#2 then .arlo else if k = 2#2 then .af else .ovr

/-- The bit index of a flag in `SR2` and in the error mask (30_encoding.md R83). -/
def ErrFlag.index : ErrFlag → Nat
  | .berr => 0
  | .arlo => 1
  | .af => 2
  | .ovr => 3

/-- The move of an `ENV` line (30_encoding.md R93; operand bits as the opcode table gives them). -/
def decodeEnv : EnvWord → Instr
  | .startdone => .envStartdone
  | .addrack => .envAddrack
  | .addrnack => .envAddrnack
  | .txack => .envTxack
  | .txnack => .envTxnack
  | .rxbyte b => .envRxbyte b
  | .stopdone f => .envStopdone (f.getLsbD 0)
  | .busstart => .envBusstart
  | .matched d => .envMatch (d.getLsbD 0)
  | .peerstop => .envPeerstop
  | .err k => .envErr (.ofBits k)

/-- The decoder: every code gives an operation or is refused by name. -/
def decode (c : Config) : Code → Except DecodeError Instr
  | .cmd w => decodeCmd c w
  | .dispatch w => .ok (dispatchArm w).instr
  | .epiErr e => decodeEpiErr e
  | .epiStop v => decodeEpiStop v
  | .env m => .ok (decodeEnv m)

/-! ### The encoder -/

/-- The command word of an opcode and its operands. -/
def encodeCmd (op : Nibble) (a : Addr7) (buffer count : Nat) : Code := .cmd ⟨op, a.toNat, buffer, count⟩

/-- The code of an operation, from the tables of 30_encoding.md R86, R88, R89 and the opcode table. An arm is
encoded by its row's match value. -/
def encode : Instr → Code
  | .init => encodeCmd 0b0001#4 0#7 0 0
  | .cfgSlave a b n => encodeCmd 0b0010#4 a b n
  | .armWrite a b n => encodeCmd 0b0100#4 a b n
  | .armRead a b n => encodeCmd 0b0101#4 a b n
  | .mStart => .dispatch 0x50#7
  | .mAddr => .dispatch 0x48#7
  | .mTx => .dispatch 0x44#7
  | .mTxUnexpected => .dispatch 0x40#7
  | .mTxIdle => .dispatch 0x41#7
  | .mRx => .dispatch 0x62#7
  | .mRxIdle => .dispatch 0x60#7
  | .sAddr => .dispatch 0x08#7
  | .sRx => .dispatch 0x02#7
  | .sTx => .dispatch 0x04#7
  | .sIdle => .dispatch 0x00#7
  | .epiErr e => .epiErr e
  | .epiStop => .epiStop 0x10#8
  | .envStartdone => .env .startdone
  | .envAddrack => .env .addrack
  | .envAddrnack => .env .addrnack
  | .envTxack => .env .txack
  | .envTxnack => .env .txnack
  | .envRxbyte b => .env (.rxbyte b)
  | .envStopdone f => .env (.stopdone (BitVec.ofBool f))
  | .envBusstart => .env .busstart
  | .envMatch d => .env (.matched (BitVec.ofBool d))
  | .envPeerstop => .env .peerstop
  | .envErr k => .env (.err (BitVec.ofNat 2 k.index))

/-! ### A bare table word -/

/-- The code a bare number of `nbits` bits stands for. The formats of 30_encoding.md R80 overlap as numbers, since
the block knows a word's format from the agent that forms it. Log 15 (DESIGN CHOICE): up to 4 bits it is a command
opcode, with operands of zero; 7 bits are a dispatch word; a whole byte is a command where it spells one, else
`0x10` is the selector of `EPI_STOP`, else it is a dispatch word. -/
def tableCode (nbits w : Nat) : Option Code :=
  if nbits ≤ 4 then
    if w < 16 then some (.cmd ⟨BitVec.ofNat 4 w, 0, 0, 0⟩) else none
  else if nbits ≤ 7 then
    if w < 128 then some (.dispatch (BitVec.ofNat 7 w)) else none
  else if w = 1 ∨ w = 2 ∨ w = 4 ∨ w = 5 then some (.cmd ⟨BitVec.ofNat 4 w, 0, 0, 0⟩)
  else if w = 0x10 then some (.epiStop 0x10#8)
  else if w < 128 then some (.dispatch (BitVec.ofNat 7 w))
  else none

/-- The operation the decoder reads from a bare table word, at the widths of the reset configuration. -/
def decodeTableWord (nbits w : Nat) : Option Instr :=
  match tableCode nbits w with
  | none => none
  | some code =>
    match decode Config.launchDefault code with
    | .ok i => some i
    | .error _ => none

end Sys2Proof
end

