-- ==== Sys2Proof/Machine/State.lean ====
section
/-!
DEFINITION. The state of the block as plain data: the transaction context (10_state.md section 1), the controller
registers (section 2), the hidden sequencing state (section 3), the trace (section 4), the caller's data memory
(20_memory.md), the bus environment's own state (10_state.md R53, 44_bus_environment.md R191), the fault and the
refusal marks (60_exceptions.md R216, R218), the parameters (00_scope.md R10) and the turns still to be taken.
-/

namespace Sys2Proof.Machine

/-- The reasons `fault` records (60_exceptions.md R216). -/
inductive FaultReason where
  /-- A rule read a context field that holds `unwritten`. -/
  | unwrittenRead
  /-- `base + cursor` overflowed `ADDR_BITS`. -/
  | addressWrap
  deriving DecidableEq, Repr

/-- Why a step has no next state. -/
inductive Fault where
  /-- Raised by `step` in every state whose `fault` field holds a reason: no agent steps after a fault
  (10_state.md R48). SAFE: the machine stops where the spec stops it. -/
  | halted (r : FaultReason)
  /-- Raised by the buffer accesses of `M_TX`, `M_RX`, `S_RX`, `S_TX` and by a caller's store at an address the
  launch memory does not hold: the agent is stuck (60_exceptions.md R217). SAFE: it allows nothing. -/
  | stuck
  deriving DecidableEq, Repr

/-- Why a step has no meaning. -/
inductive Refusal where
  /-- Raised by an arm of `exec` that has no meaning yet; no arm of this model is left so. SAFE. -/
  | notModelled (mnemonic : String)
  deriving DecidableEq, Repr

/-- The marks of refusals (60_exceptions.md R218). -/
inductive RefusalMark where
  /-- `Refused(ReservedCommand op)` (30_encoding.md R90). -/
  | reservedCommand (op : Nibble)
  /-- `Refused(OperandWidth)` (30_encoding.md R91). -/
  | operandWidth
  /-- `Refused(CallbackReentry)` (60_exceptions.md R226). -/
  | callbackReentry
  deriving DecidableEq, Repr

/-- The transaction context (10_state.md R20). `none` is the spec's own value `unwritten` (00_scope.md R15). -/
structure Context where
  role : Role
  direction : Option Direction
  peerAddress : Option Addr7
  masterBuffer : Option Nat
  masterLength : Option Nat
  slaveBuffer : Option Nat
  slaveLength : Nat
  cursor : Nat
  scratch : Option Byte
  deriving DecidableEq, Repr

/-- The controller registers (10_state.md R31 to R40). -/
structure Regs where
  cr1 : Byte
  cr2 : Byte
  freqr : Byte
  oar : Byte
  /-- `DR`: the byte last written by the engine or delivered by the environment. -/
  dr : Byte
  /-- What a read of `DR` returns: the last byte the environment delivered (10_state.md R36). -/
  delivered : Byte
  sr1 : Byte
  sr2 : Byte
  sr3 : Byte
  itr : Byte
  ccr : Byte
  triser : Byte
  deriving DecidableEq, Repr

/-- The hidden clear latches (10_state.md R41). -/
structure Latches where
  sbArmed : Bool
  addrArmed : Bool
  stopArmed : Bool
  deriving DecidableEq, Repr

/-- `eng.phase` (10_state.md R44). -/
inductive EngPhase where
  | idle | branch | epiErr | epiStop
  deriving DecidableEq, Repr

/-- `call.phase` (10_state.md R44). -/
inductive CallPhase where
  | ready | armWait | armIssue
  deriving DecidableEq, Repr

/-- What a `Wire` event names (44_bus_environment.md R191). `ack` is true for Ack. -/
inductive Wire where
  | start
  | repStart
  | addrAck
  | addrNack
  | byte (b : Byte) (ack : Bool)
  | stop
  | extStart
  | addrMatch (d : Bool)
  | extStop
  | err (k : ErrFlag)
  deriving DecidableEq, Repr

/-- Trace events (10_state.md R45). -/
inductive Event where
  | regRd (r : RegName) (v : Byte)
  | regWr (r : RegName) (v : Byte)
  | memRd (a : Nat) (v : Byte)
  | memWr (a : Nat) (v : Byte)
  | startReq
  | stopReq
  | ackSet (b : Bool)
  | cbMasterWriteDone (buf len : Nat)
  | cbMasterReadDone (buf len : Nat)
  | cbSlaveReceiveDone (buf len : Nat)
  | cbSlaveTransmitDone (buf len : Nat)
  | cbError (mask : Nibble)
  | diag (arm : Arm)
  | wire (w : Wire)
  deriving DecidableEq, Repr

/-- Who made an event (10_state.md R45): a command, an arm, an epilogue phase or the environment; the dispatch
read, which comes before the arm is chosen (60_exceptions.md R219), has a tag of its own (log 12). -/
inductive Tag where
  | command (c : Command)
  | dispatch
  | arm (a : Arm)
  | epiErr
  | epiStop
  | env
  deriving DecidableEq, Repr

/-- One entry of the trace. -/
structure Entry where
  tag : Tag
  event : Event
  deriving DecidableEq, Repr

/-- How far the acknowledge of the address byte has come (44_bus_environment.md R191, guards). -/
inductive AddrPhase where
  /-- No address byte is awaiting an acknowledge and none has been acknowledged since the last Start. -/
  | none
  /-- A byte was written to `DR` that cleared `SB`, and it has not been acknowledged yet. -/
  | sent
  /-- It was acknowledged. -/
  | acked
  /-- It was not acknowledged. -/
  | nacked
  deriving DecidableEq, Repr

/-- The bus environment's own state (10_state.md R53): what its moves and guards look back at. -/
structure Env where
  /-- The address byte last written after a Start (44_bus_environment.md R191). -/
  addrByte : Byte
  addrPhase : AddrPhase
  /-- The address match in force, with its direction; none between transfers. -/
  slaveMatch : Option Bool
  /-- A Start or a Stop of another master has been seen since this device's own last Start. -/
  foreign : Bool
  /-- The last `Wire` event (44_bus_environment.md R195). -/
  lastWire : Option Wire
  /-- The acknowledge driven for the last byte received since an address was acknowledged; true before the first
  (44_bus_environment.md R191, R195). -/
  rxAck : Bool
  /-- The address another master has sent and no match has answered yet, if one is due (44_bus_environment.md R194). -/
  called : Option Addr7
  deriving DecidableEq, Repr

/-- The caller's data memory: the bytes written so far, addresses strictly rising (20_memory.md R61). -/
abbrev Memory := List Host.Cell

/-- The canonical form: addresses strictly rising. An unlisted address holds no written byte, so no entry can
equal what an unlisted address reads as. -/
abbrev Memory.wf (m : Memory) : Prop := m.Pairwise (fun x y => x.1 < y.1)

/-- What a callback body attached by a program does (60_exceptions.md R225, R226). -/
inductive CallbackBody where
  /-- It keeps to its contract: the block is not touched. -/
  | plain
  /-- It runs a host command. -/
  | command (w : CmdWord)
  /-- It changes the context. -/
  | changeContext
  /-- It reads or writes a controller register. -/
  | touchRegister (r : RegName)
  deriving DecidableEq, Repr

/-- One turn: which agent moves next, and the input it moves on (log 1). -/
inductive Turn where
  /-- The caller issues a command word (30_encoding.md R89). -/
  | command (w : CmdWord)
  /-- The caller takes the next phase of the arming command under way (40_host_commands.md R108, R109). -/
  | caller
  /-- The caller writes one byte of its own data memory (70_reset_and_hazards.md R247). -/
  | store (a : Nat) (v : Byte)
  /-- The processor takes the interrupt, or the engine takes its next phase (60_exceptions.md R220). -/
  | engine
  /-- The bus environment makes a move (44_bus_environment.md R191). -/
  | env (m : EnvWord)
  /-- Another master sends the address of the device it calls; `none` stands for this device's own, as `OAR` holds it
  (44_bus_environment.md R194). -/
  | called (a : Option Addr7)
  /-- A callback body attached by a program runs (60_exceptions.md R226). -/
  | callback (b : CallbackBody)
  deriving DecidableEq, Repr

/-- The state of the block. -/
structure State where
  /-- The parameters; no step changes them. -/
  cfg : Config
  ctx : Context
  regs : Regs
  seq : Latches
  eng : EngPhase
  call : CallPhase
  env : Env
  mem : Memory
  /-- The model's own field: the turns still to be taken, next first. -/
  turns : List Turn
  /-- Oldest first. -/
  trace : List Entry
  fault : Option FaultReason
  /-- Every mark set so far, oldest first. -/
  refusals : List RefusalMark
  deriving DecidableEq, Repr

/-- The context at reset (10_state.md R51). -/
def Context.reset : Context where
  role := .slave
  direction := none
  peerAddress := none
  masterBuffer := none
  masterLength := none
  slaveBuffer := none
  slaveLength := 0
  cursor := 0
  scratch := none

/-- The registers at reset (10_state.md R52); the three `TIMING` registers hold what the configuration says. -/
def Regs.reset (c : Config) : Regs where
  cr1 := 0x00#8
  cr2 := 0x00#8
  freqr := c.powerUp.freq
  oar := 0x00#8
  dr := 0x00#8
  delivered := 0x00#8
  sr1 := 0x00#8
  sr2 := 0x00#8
  sr3 := 0x00#8
  itr := 0x00#8
  ccr := c.powerUp.ccr
  triser := c.powerUp.trise

/-- The environment's state at reset: unconstrained (10_state.md R53); no bus event has happened (log 6). -/
def Env.reset : Env where
  addrByte := Config.freeAddrByte
  addrPhase := .none
  slaveMatch := none
  foreign := false
  lastWire := none
  rxAck := true
  called := none

/-- The reset state of a configuration (70_reset_and_hazards.md R240). -/
def State.resetWith (c : Config) : State where
  cfg := c
  ctx := .reset
  regs := .reset c
  seq := ⟨false, false, false⟩
  eng := .idle
  call := .ready
  env := .reset
  mem := []
  turns := []
  trace := []
  fault := none
  refusals := []

/-- The machine right after reset, at the default configuration. -/
def State.reset : State := .resetWith .launchDefault

end Sys2Proof.Machine
end

