-- ==== Sys2Proof/Machine/Flags.lean ====
section
/-!
DEFINITION. The flags and fields of the controller registers by bit position (10_state.md R32 to R40), the bits
each register implements, and the predicate `pending` (10_state.md R46).
-/

namespace Sys2Proof.Machine

/-- A byte with bit `k` set to `b`. -/
def putBit (v : Byte) (k : Nat) (b : Bool) : Byte :=
  if b then v ||| (1#8 <<< k) else v &&& ~~~(1#8 <<< k)

/-- The bits a register implements; the others read as 0 and are written as 0 (10_state.md R32 to R40). -/
def implMask : RegName → Byte
  | .cr1 => 0x01#8
  | .cr2 => 0x07#8
  | .freqr => 0xFF#8
  | .oar => 0xFE#8
  | .dr => 0xFF#8
  | .sr1 => 0xD3#8
  | .sr2 => 0x0F#8
  | .sr3 => 0x07#8
  | .itr => 0x07#8
  | .ccr => 0xFF#8
  | .triser => 0xFF#8

/-- `CR1.PE` (10_state.md R32). -/
def Regs.pe (g : Regs) : Bool := g.cr1.getLsbD 0

/-- `CR2.START` (10_state.md R33). -/
def Regs.start (g : Regs) : Bool := g.cr2.getLsbD 0

/-- `CR2.STOP` (10_state.md R33). -/
def Regs.stop (g : Regs) : Bool := g.cr2.getLsbD 1

/-- `CR2.ACK` (10_state.md R33). -/
def Regs.ack (g : Regs) : Bool := g.cr2.getLsbD 2

/-- `OAR[7:1]`, the own address (10_state.md R35). -/
def Regs.ownAddr (g : Regs) : Addr7 := g.oar.extractLsb' 1 7

/-- `SR1.SB` (10_state.md R37). -/
def Regs.sb (g : Regs) : Bool := g.sr1.getLsbD 0

/-- `SR1.ADDR` (10_state.md R37). -/
def Regs.addr (g : Regs) : Bool := g.sr1.getLsbD 1

/-- `SR1.STOPF` (10_state.md R37). -/
def Regs.stopf (g : Regs) : Bool := g.sr1.getLsbD 4

/-- `SR1.RXNE` (10_state.md R37). -/
def Regs.rxne (g : Regs) : Bool := g.sr1.getLsbD 6

/-- `SR1.TXE` (10_state.md R37). -/
def Regs.txe (g : Regs) : Bool := g.sr1.getLsbD 7

/-- An error flag of `SR2` (10_state.md R38). -/
def Regs.err (g : Regs) (k : ErrFlag) : Bool := g.sr2.getLsbD k.index

/-- `SR2[3:0]` (30_encoding.md R83). -/
def Regs.errMask (g : Regs) : Nibble := g.sr2.extractLsb' 0 4

/-- `SR3.MSL` (10_state.md R39). -/
def Regs.msl (g : Regs) : Bool := g.sr3.getLsbD 0

/-- `SR3.BUSY` (10_state.md R39). -/
def Regs.busy (g : Regs) : Bool := g.sr3.getLsbD 1

/-- `SR3.TRA` (10_state.md R39). -/
def Regs.tra (g : Regs) : Bool := g.sr3.getLsbD 2

/-- `ITR.ITERREN` (10_state.md R40). -/
def Regs.iterren (g : Regs) : Bool := g.itr.getLsbD 0

/-- `ITR.ITEVTEN` (10_state.md R40). -/
def Regs.itevten (g : Regs) : Bool := g.itr.getLsbD 1

/-- `ITR.ITBUFEN` (10_state.md R40). -/
def Regs.itbufen (g : Regs) : Bool := g.itr.getLsbD 2

/-- `SR1` with `SB` set to `b`. -/
def Regs.setSb (g : Regs) (b : Bool) : Regs := { g with sr1 := putBit g.sr1 0 b }

/-- `SR1` with `ADDR` set to `b`. -/
def Regs.setAddr (g : Regs) (b : Bool) : Regs := { g with sr1 := putBit g.sr1 1 b }

/-- `SR1` with `STOPF` set to `b`. -/
def Regs.setStopf (g : Regs) (b : Bool) : Regs := { g with sr1 := putBit g.sr1 4 b }

/-- `SR1` with `RXNE` set to `b`. -/
def Regs.setRxne (g : Regs) (b : Bool) : Regs := { g with sr1 := putBit g.sr1 6 b }

/-- `SR1` with `TXE` set to `b`. -/
def Regs.setTxe (g : Regs) (b : Bool) : Regs := { g with sr1 := putBit g.sr1 7 b }

/-- `SR2` with an error flag raised (44_bus_environment.md R198). -/
def Regs.raiseErr (g : Regs) (k : ErrFlag) : Regs := { g with sr2 := putBit g.sr2 k.index true }

/-- `SR3` with `MSL` set to `b`. -/
def Regs.setMsl (g : Regs) (b : Bool) : Regs := { g with sr3 := putBit g.sr3 0 b }

/-- `SR3` with `BUSY` set to `b`. -/
def Regs.setBusy (g : Regs) (b : Bool) : Regs := { g with sr3 := putBit g.sr3 1 b }

/-- `SR3` with `TRA` set to `b`. -/
def Regs.setTra (g : Regs) (b : Bool) : Regs := { g with sr3 := putBit g.sr3 2 b }

/-- `CR2` with `START` cleared, as the environment clears it (10_state.md R33). -/
def Regs.clearStart (g : Regs) : Regs := { g with cr2 := putBit g.cr2 0 false }

/-- `CR2` with `STOP` cleared, as the environment clears it (10_state.md R33). -/
def Regs.clearStop (g : Regs) : Regs := { g with cr2 := putBit g.cr2 1 false }

/-- An event flag is set (10_state.md R46, 60_exceptions.md R214). -/
def Regs.evt (g : Regs) : Bool := g.sb || g.addr || g.stopf

/-- A buffer flag is set (10_state.md R46). -/
def Regs.buf (g : Regs) : Bool := g.txe || g.rxne

/-- An error flag is set (10_state.md R46). -/
def Regs.errPending (g : Regs) : Bool := g.errMask != 0#4

/-- Interrupt pending (10_state.md R46). -/
def Regs.pending (g : Regs) : Bool :=
  g.pe && ((g.itevten && (g.evt || (g.itbufen && g.buf))) || (g.iterren && g.errPending))

end Sys2Proof.Machine
end

