-- ==== Sys2Proof/Machine/Ops.lean ====
section
/-!
DEFINITION. The named operations: the trace, the register interface with its side effects (10_state.md R41, R42,
20_memory.md R67), the caller's data memory, faults and refusal marks, and service entry and return
(60_exceptions.md R220, R222).
-/

namespace Sys2Proof.Machine

/-- What an operation answers. -/
abbrev Result := Host.Outcome State Fault Refusal

/-! ### The trace -/

/-- `emit E`: append an event with its tag (10_state.md R45). -/
def State.emit (s : State) (t : Tag) (e : Event) : State :=
  { s with trace := s.trace ++ [⟨t, e⟩] }

/-! ### Context writes -/

/-- `ctx.role <- r`. -/
def State.setRole (s : State) (r : Role) : State := { s with ctx := { s.ctx with role := r } }

/-- `ctx.cursor <- v`. -/
def State.setCursor (s : State) (v : Nat) : State := { s with ctx := { s.ctx with cursor := v } }

/-- `ctx.cursor <- (ctx.cursor + 1) mod 2^LEN_BITS` (10_state.md R27). -/
def State.incCursor (s : State) : State := s.setCursor ((s.ctx.cursor + 1) % s.cfg.lenSpan)

/-- `ctx.scratch <- v` (10_state.md R28). -/
def State.setScratch (s : State) (v : Byte) : State := { s with ctx := { s.ctx with scratch := some v } }

/-! ### Register reads -/

/-- The stored byte of a register, as a read finds it. -/
def Regs.stored (g : Regs) : RegName → Byte
  | .cr1 => g.cr1
  | .cr2 => g.cr2
  | .freqr => g.freqr
  | .oar => g.oar
  | .dr => g.delivered
  | .sr1 => g.sr1
  | .sr2 => g.sr2
  | .sr3 => g.sr3
  | .itr => g.itr
  | .ccr => g.ccr
  | .triser => g.triser

/-- The value a read of a register returns; bits it does not implement read as 0 (10_state.md R32 to R40). -/
def State.regVal (s : State) (r : RegName) : Byte := s.regs.stored r &&& implMask r

/-- A read of `SR1` sets each latch whose flag reads 1 (10_state.md R41). -/
def State.armLatches (s : State) : State :=
  { s with seq :=
      { sbArmed := s.seq.sbArmed || s.regs.sb
        addrArmed := s.seq.addrArmed || s.regs.addr
        stopArmed := s.seq.stopArmed || s.regs.stopf } }

/-- `ADDR` is cleared by a read of `SR3` while `seq.addrArmed = 1`; the latch clears with it (10_state.md R41). -/
def State.completeAddrClear (s : State) : State :=
  if s.seq.addrArmed then
    { s with regs := s.regs.setAddr false, seq := { s.seq with addrArmed := false } }
  else s

/-- The side effect of a read (20_memory.md R67). -/
def State.readEffect (s : State) : RegName → State
  | .sr1 => s.armLatches
  | .sr3 => s.completeAddrClear
  | .dr => { s with regs := s.regs.setRxne false }
  | .cr1 => s
  | .cr2 => s
  | .freqr => s
  | .oar => s
  | .sr2 => s
  | .itr => s
  | .ccr => s
  | .triser => s

/-- The state after a read of a register: its side effect and its access event (10_state.md R45). The value read
is `regVal` of the state before. -/
def State.afterRead (s : State) (t : Tag) (r : RegName) : State :=
  (s.readEffect r).emit t (.regRd r (s.regVal r))

/-- `ctx.scratch <- reg.R`: a status read made for its side effect (10_state.md R28). -/
def State.readScratch (s : State) (t : Tag) (r : RegName) : State :=
  (s.afterRead t r).setScratch (s.regVal r)

/-! ### Register writes -/

/-- A write of `DR`: the byte goes to the transmit path and `TXE` is cleared (10_state.md R36, R41). -/
def State.loadDr (s : State) (v : Byte) : State :=
  { s with regs := { s.regs.setTxe false with dr := v } }

/-- `SB` is cleared by a write of `DR` while `seq.sbArmed = 1` (10_state.md R41). That byte is the address byte
the environment has to answer (44_bus_environment.md R191). -/
def State.completeSbClear (s : State) (v : Byte) : State :=
  if s.seq.sbArmed then
    { s with
      regs := s.regs.setSb false
      seq := { s.seq with sbArmed := false }
      env := { s.env with addrByte := v, addrPhase := .sent } }
  else s

/-- `STOPF` is cleared by a write of `CR2` while `seq.stopArmed = 1` (10_state.md R41). -/
def State.completeStopClear (s : State) : State :=
  if s.seq.stopArmed then
    { s with regs := s.regs.setStopf false, seq := { s.seq with stopArmed := false } }
  else s

/-- What a write of a register stores and its side effects (10_state.md R32 to R42, 20_memory.md R67). `SR1` and
`SR3` are read-only to the block. -/
def State.writeEffect (s : State) (v : Byte) : RegName → State
  | .cr1 => { s with regs := { s.regs with cr1 := v &&& implMask .cr1 } }
  | .cr2 => { s with regs := { s.regs with cr2 := v &&& implMask .cr2 } }.completeStopClear
  | .freqr => { s with regs := { s.regs with freqr := v } }
  | .oar => { s with regs := { s.regs with oar := v &&& implMask .oar } }
  | .dr => (s.loadDr v).completeSbClear v
  | .sr1 => s
  | .sr2 => { s with regs := { s.regs with sr2 := s.regs.sr2 &&& (v &&& implMask .sr2) } }
  | .sr3 => s
  | .itr => { s with regs := { s.regs with itr := v &&& implMask .itr } }
  | .ccr => { s with regs := { s.regs with ccr := v } }
  | .triser => { s with regs := { s.regs with triser := v } }

/-- `reg.R <- v`, with its access event. -/
def State.writeReg (s : State) (t : Tag) (r : RegName) (v : Byte) : State :=
  (s.writeEffect v r).emit t (.regWr r v)

/-- The slave branch's `reg.DR <- v`, with its access event: the byte goes out and `TXE` is cleared. The write that
completes an `SB` clear is "the address write itself" (92_eei_decisions.md D11, which 10_state.md R41 and 20_memory.md
R67 cite), and nothing in Slave role clears `SB` (42_slave_branch.md R168). DEDUCED (log 14). -/
def State.sendByte (s : State) (t : Tag) (v : Byte) : State := (s.loadDr v).emit t (.regWr .dr v)

/-- `reg.R.F <- b`: an atomic read-modify-write of the whole register, one write event (20_memory.md R77,
40_host_commands.md R111). -/
def State.writeBit (s : State) (t : Tag) (r : RegName) (k : Nat) (b : Bool) : State :=
  s.writeReg t r (putBit (s.regVal r) k b)

/-- `reg.CR2.ACK <- b ; emit AckSet(b)`. -/
def State.setAck (s : State) (t : Tag) (b : Bool) : State := (s.writeBit t .cr2 2 b).emit t (.ackSet b)

/-- `reg.CR2.START <- 1 ; emit StartReq`. -/
def State.requestStart (s : State) (t : Tag) : State := (s.writeBit t .cr2 0 true).emit t .startReq

/-- `reg.CR2.STOP <- 1 ; emit StopReq`. -/
def State.requestStop (s : State) (t : Tag) : State := (s.writeBit t .cr2 1 true).emit t .stopReq

/-! ### Register addresses -/

/-- The offset of a register from `REG_BASE` (10_state.md R31). -/
def regOffset : RegName → Nat
  | .cr1 => 0x00
  | .cr2 => 0x01
  | .freqr => 0x02
  | .oar => 0x03
  | .dr => 0x06
  | .sr1 => 0x07
  | .sr2 => 0x08
  | .sr3 => 0x09
  | .itr => 0x0A
  | .ccr => 0x0B
  | .triser => 0x0D

/-- The address of a register, `REG_BASE + offset` (20_memory.md R62). The rules name registers; nothing else
reads this address. -/
def regAddress (c : Config) (r : RegName) : Nat := c.regBase + regOffset r

/-! ### The caller's data memory -/

/-- The byte written at an address; `none` where nothing has been written. -/
def Memory.read : Memory → Nat → Option Byte
  | [], _ => none
  | (b, w) :: m, a => if a = b then some w else Memory.read m a

/-- A byte written, the addresses kept strictly rising. -/
def Memory.write : Memory → Nat → Byte → Memory
  | [], a, v => [(a, v)]
  | (b, w) :: m, a, v =>
    if a < b then (a, v) :: (b, w) :: m
    else if a = b then (a, v) :: m
    else (b, w) :: Memory.write m a v

/-- The address lies in a region. -/
def regionHolds (a : Nat) (r : Region) : Bool := decide (r.base ≤ a) && decide (a < r.base + r.size)

/-- The launch memory holds the address (20_memory.md R68); addresses are `ADDR_BITS` wide (R61). -/
def State.hasAddr (s : State) (a : Nat) : Bool :=
  decide (a < s.cfg.addrSpan) && s.cfg.launch.any (regionHolds a)

/-- The byte at an address: what was written there, else the free value of that address (log 5). -/
def State.byteAt (s : State) (a : Nat) : Byte := (s.mem.read a).getD (Config.freeByte a)

/-- A byte stored. -/
def State.storeByte (s : State) (a : Nat) (v : Byte) : State := { s with mem := s.mem.write a v }

/-! ### Faults and refusals -/

/-- `raise Fault(reason)`: the first fault is recorded and the agent's step ends (60_exceptions.md R216). What the
step did before stands; `eng.phase` does not move on (log 8). -/
def raiseFault (r : FaultReason) (s : State) : Result :=
  .next { s with fault := match s.fault with
                          | none => some r
                          | some r' => some r' }

/-- A refusal sets a mark that is kept and has no other effect (60_exceptions.md R218). -/
def State.mark (s : State) (m : RefusalMark) : State := { s with refusals := s.refusals ++ [m] }

/-! ### Service entry and return (60_exceptions.md R220 to R222) -/

/-- Service entry: nothing is saved; the engine stands at phase `Branch` (60_exceptions.md R220). -/
def State.enterService (s : State) : State := { s with eng := .branch }

/-- The arm is done: phase `EpiErr` comes next (60_exceptions.md R220). -/
def State.endBranch (s : State) : State := { s with eng := .epiErr }

/-- Phase `EpiErr` is done: phase `EpiStop` comes next (60_exceptions.md R220). -/
def State.endEpiErr (s : State) : State := { s with eng := .epiStop }

/-- Return: `eng.phase <- Idle`; nothing is restored (60_exceptions.md R222). -/
def State.leaveService (s : State) : State := { s with eng := .idle }

/-- An epilogue phase whose arm is not selected only moves on (43_epilogue.md R186). -/
def State.skipPhase (s : State) : State :=
  match s.eng with
  | .epiErr => s.endEpiErr
  | .epiStop => s.leaveService
  | .idle => s
  | .branch => s

end Sys2Proof.Machine
end

