-- ==== Sys2Proof/Machine/Operands.lean ====
section
/-!
DEFINITION. The operand forms: context fields that may be unwritten (00_scope.md R15), the buffer element at
`base + cursor` (20_memory.md R61, R68, R69), the index of the last byte (10_state.md R27), the address byte
(30_encoding.md R81) and the own-address byte (10_state.md R35).
-/

namespace Sys2Proof.Machine

/-- Read a context field and go on with its value; an unwritten field raises `UnwrittenRead` (00_scope.md R15). -/
def needField {α : Type} (f : Option α) (s : State) (k : α → Result) : Result :=
  match f with
  | some v => k v
  | none => raiseFault .unwrittenRead s

/-- Reach `base + cursor` and go on with the address: `AddressWrap` beyond `ADDR_BITS` (20_memory.md R69), stuck
outside the launch memory (20_memory.md R68). -/
def atElement (base cursor : Nat) (s : State) (k : Nat → Result) : Result :=
  if s.cfg.addrSpan ≤ base + cursor then raiseFault .addressWrap s
  else if s.hasAddr (base + cursor) then k (base + cursor)
  else .fault .stuck

/-- `v <- MemRead(base + cursor, 1)`, going on with the byte. -/
def memRead (t : Tag) (base cursor : Nat) (s : State) (k : Byte → State → Result) : Result :=
  atElement base cursor s fun a => k (s.byteAt a) (s.emit t (.memRd a (s.byteAt a)))

/-- `MemWrite(base + cursor, 1, v)`, going on with the state after it. -/
def memWrite (t : Tag) (base cursor : Nat) (v : Byte) (s : State) (k : State → Result) : Result :=
  atElement base cursor s fun a => k ((s.storeByte a v).emit t (.memWr a v))

/-- `length - 1`, modulo `2^LEN_BITS` (10_state.md R27). -/
def lastIndex (c : Config) (length : Nat) : Nat := (length + (c.lenSpan - 1)) % c.lenSpan

/-- `ADDRBYTE`: `{peer[6:0], D}` (30_encoding.md R81). -/
def addrByteOf (peer : Addr7) (d : Direction) : Byte := peer ++ BitVec.ofBool d.bit

/-- `{address[6:0], 0}`, the own address as `OAR` holds it (10_state.md R35). -/
def ownAddrByte (a : Addr7) : Byte := a ++ 0#1

end Sys2Proof.Machine
end

