-- ==== Sys2Proof/Machine/Commands.lean ====
section
/-!
DEFINITION. The host commands (40_host_commands.md). An arming command runs as three steps, told apart by
`call.phase`; each step of it is its meaning run once.
-/

namespace Sys2Proof.Machine

/-- `INIT`: one atomic step (40_host_commands.md R102). -/
def execInit (s : State) : Result :=
  let t := Tag.command .init
  let s := s.writeReg t .itr 0x00#8
  let s := s.writeReg t .freqr s.cfg.timing.freq
  let s := s.writeReg t .ccr s.cfg.timing.ccr
  let s := s.writeReg t .triser s.cfg.timing.trise
  let s := s.writeReg t .oar (ownAddrByte s.cfg.ownAddr)
  let s := s.writeReg t .itr 0x07#8
  .next (s.writeBit t .cr1 0 true)

/-- `CFG_SLAVE address, buffer, capacity`: one atomic step (40_host_commands.md R104). -/
def execCfgSlave (address : Addr7) (buffer capacity : Nat) (s : State) : Result :=
  let t := Tag.command .cfgSlave
  let s := s.writeReg t .oar (ownAddrByte address)
  let s := { s with ctx := { s.ctx with slaveBuffer := some buffer, slaveLength := capacity, role := .slave } }
  .next (s.setAck t true)

/-- The tag of an arming command's events (10_state.md R45). -/
def armTag : Direction → Tag
  | .write => .command .armWrite
  | .read => .command .armRead

/-- Phase A: the context is recorded (40_host_commands.md R107). -/
def armRecord (d : Direction) (peer : Addr7) (buffer length : Nat) (s : State) : State :=
  { s with
    ctx := { s.ctx with
      direction := some d
      peerAddress := some peer
      masterBuffer := some buffer
      masterLength := some length
      cursor := 0
      role := .master }
    call := .armWait }

/-- Phase B: one step of the busy spin (40_host_commands.md R108). -/
def armSpin (d : Direction) (s : State) : State :=
  let busy := (s.regVal .sr3).getLsbD 1
  { s.readScratch (armTag d) .sr3 with call := if busy then .armWait else .armIssue }

/-- Phase C: acknowledge enabled and a Start requested (40_host_commands.md R109). -/
def armIssue (d : Direction) (s : State) : State :=
  { (s.setAck (armTag d) true).requestStart (armTag d) with call := .ready }

/-- One step of an arming command: the phase that `call.phase` says (40_host_commands.md R106). -/
def armStep (d : Direction) (peer : Addr7) (buffer length : Nat) (s : State) : State :=
  match s.call with
  | .ready => armRecord d peer buffer length s
  | .armWait => armSpin d s
  | .armIssue => armIssue d s

/-- `ARM_WRITE peer, buffer, length` (40_host_commands.md R106). -/
def execArmWrite (peer : Addr7) (buffer length : Nat) (s : State) : Result :=
  .next (armStep .write peer buffer length s)

/-- `ARM_READ peer, buffer, length` (40_host_commands.md R106). -/
def execArmRead (peer : Addr7) (buffer length : Nat) (s : State) : Result :=
  .next (armStep .read peer buffer length s)

/-- The arming command under way, whose phases B and C come next: its direction and operands stand in the context
since phase A (log 11). -/
def armingUnderWay (s : State) : Instr :=
  .arming (s.ctx.direction.getD .write) (s.ctx.peerAddress.getD 0#7) (s.ctx.masterBuffer.getD 0)
    (s.ctx.masterLength.getD 0)

end Sys2Proof.Machine
end

