-- ==== Sys2Proof/Machine/Environment.lean ====
section
/-!
DEFINITION. The moves of the bus environment (44_bus_environment.md R191). A meaning is the move of the free
environment, its effect whatever the state; `envGuard` is the guard a conforming environment respects (R200).
-/

namespace Sys2Proof.Machine

/-- `Wire(e)`: what happened on the bus (44_bus_environment.md R190). -/
def State.onWire (s : State) (w : Wire) : State :=
  { s with env := { s.env with lastWire := some w } }.emit .env (.wire w)

/-- `STARTDONE` (44_bus_environment.md R192): a Repeat-Start where `MSL` was already 1. A new address phase is due
unless an address byte is still unanswered. -/
def execEnvStartdone (s : State) : Result :=
  let w := if s.regs.msl then Wire.repStart else Wire.start
  let ph := match s.env.addrPhase with
    | .sent => AddrPhase.sent
    | .none => AddrPhase.none
    | .acked => AddrPhase.none
    | .nacked => AddrPhase.none
  .next ({ s with
    regs := (((s.regs.clearStart.setSb true).setMsl true).setBusy true)
    env := { s.env with addrPhase := ph, slaveMatch := none, foreign := false, called := none } }.onWire w)

/-- `D`, bit 0 of the address byte last written after a Start (44_bus_environment.md R191). -/
def State.addrDir (s : State) : Bool := s.env.addrByte.getLsbD 0

/-- `ADDRACK` (44_bus_environment.md R191, R196). -/
def execEnvAddrack (s : State) : Result :=
  let g := (s.regs.setAddr true).setTra (!s.addrDir)
  .next ({ s with
    regs := if s.addrDir then g else g.setTxe true
    env := { s.env with addrPhase := .acked, rxAck := true } }.onWire .addrAck)

/-- `ADDRNACK` (44_bus_environment.md R191, R196). DESIGN CHOICE (log 6): a NACK answers the address byte as an ACK does, so
neither `ADDRACK` nor `ADDRNACK` conforms after it until another address byte is written. -/
def execEnvAddrnack (s : State) : Result :=
  .next ({ s with
    regs := s.regs.raiseErr .af
    env := { s.env with addrPhase := .nacked } }.onWire .addrNack)

/-- `TXACK` (44_bus_environment.md R191, R196). -/
def execEnvTxack (s : State) : Result :=
  .next ({ s with regs := s.regs.setTxe true }.onWire (.byte s.regs.dr true))

/-- `TXNACK` (44_bus_environment.md R191, R196). -/
def execEnvTxnack (s : State) : Result :=
  .next ({ s with regs := s.regs.raiseErr .af }.onWire (.byte s.regs.dr false))

/-- `RXBYTE b` (44_bus_environment.md R195, R204): the acknowledge is `CR2.ACK` as it stands (10_state.md R43). -/
def execEnvRxbyte (b : Byte) (s : State) : Result :=
  let g := if s.regs.rxne then s.regs.raiseErr .ovr else s.regs.setRxne true
  .next ({ s with
    regs := { g with dr := b, delivered := b }
    env := { s.env with rxAck := s.regs.ack } }.onWire (.byte b s.regs.ack))

/-- `STOPDONE f` (44_bus_environment.md R193). -/
def execEnvStopdone (f : Bool) (s : State) : Result :=
  let g := ((s.regs.clearStop.setMsl false).setBusy false).setTra false
  .next ({ s with
    regs := if f then g.setStopf true else g
    env := { s.env with slaveMatch := none, called := none } }.onWire .stop)

/-- `BUSSTART` (44_bus_environment.md R194). -/
def execEnvBusstart (s : State) : Result :=
  .next ({ s with
    regs := s.regs.setBusy true
    env := { s.env with slaveMatch := none, foreign := true, called := none } }.onWire .extStart)

/-- `MATCH d` (44_bus_environment.md R191, R194). -/
def execEnvMatch (d : Bool) (s : State) : Result :=
  let g := (s.regs.setAddr true).setTra d
  .next ({ s with
    regs := if d then g.setTxe true else g
    env := { s.env with slaveMatch := some d, called := none } }.onWire (.addrMatch d))

/-- `PEERSTOP` (44_bus_environment.md R199). -/
def execEnvPeerstop (s : State) : Result :=
  .next ({ s with
    regs := ((s.regs.setStopf true).setBusy false).setTra false
    env := { s.env with slaveMatch := none, foreign := true, called := none } }.onWire .extStop)

/-- `ERR k` (44_bus_environment.md R198): arbitration lost also clears `MSL`. DESIGN CHOICE (log 6): a lost arbitration is
by itself no Start of another master for the guard of `MATCH`; a `BUSSTART` or a `PEERSTOP` has to follow. -/
def execEnvErr (k : ErrFlag) (s : State) : Result :=
  let g := s.regs.raiseErr k
  .next ({ s with regs := if k = ErrFlag.arlo then g.setMsl false else g }.onWire (.err k))

/-! ### The address another master sends -/

/-- The address byte of another master: the environment's own state, which a conforming `MATCH` compares with `OAR[7:1]`
(44_bus_environment.md R194). No register changes and there is no `Wire` event: the wire event of a call to this
device is the match's. -/
def State.sendAddress (s : State) (a : Option Addr7) : State :=
  { s with env := { s.env with called := some (a.getD s.regs.ownAddr) } }

/-! ### The guards of the conforming environment -/

/-- This device is transmitting: as master with `TRA = 1`, or as an addressed slave the peer reads from. -/
def State.transmitting (s : State) : Bool :=
  (s.regs.msl && s.regs.tra) || s.env.slaveMatch == some true

/-- This device is receiving as master: the address was acknowledged with `D = 1`, `ADDR` has been cleared, the previous
byte was acknowledged, whatever moves came after it, and the last `Wire` was no `Nack` (44_bus_environment.md R191,
R195). -/
def State.masterReceiving (s : State) : Bool :=
  s.regs.msl && s.env.addrPhase == .acked && s.addrDir && !s.regs.addr && s.env.rxAck &&
    (match s.env.lastWire with
     | some (.byte _ ack) => ack
     | some .addrNack => false
     | _ => true)

/-- The guard column of 44_bus_environment.md R191; `MATCH` only for an address byte equal to `OAR[7:1]` (R194, 10_state.md
R35). -/
def envGuard (m : EnvWord) (s : State) : Bool :=
  match m with
  | .startdone => s.regs.start && (!s.regs.busy || s.regs.msl)
  | .addrack => s.env.addrPhase == .sent
  | .addrnack => s.env.addrPhase == .sent
  | .txack => s.transmitting && !s.regs.txe && !s.regs.sb
  | .txnack => s.transmitting && !s.regs.txe && !s.regs.sb
  | .rxbyte _ => s.masterReceiving || s.env.slaveMatch == some false
  | .stopdone _ => s.regs.stop && s.regs.msl
  | .busstart => !s.regs.busy && !s.regs.msl
  | .matched _ => s.regs.busy && !s.regs.msl && s.env.foreign && s.env.called == some s.regs.ownAddr
  | .peerstop => s.regs.busy && !s.regs.msl
  | .err _ => s.regs.busy

end Sys2Proof.Machine
end

