-- ==== Sys2Proof/Machine/Epilogue.lean ====
section
/-!
DEFINITION. The shared epilogue (43_epilogue.md): `EPI_ERR` with the mask its phase has read, and `EPI_STOP`,
whose phase has read `SR1`.
-/

namespace Sys2Proof.Machine

/-- The byte that clears one error flag: `NOT (1 << k) AND 0x0F` (43_epilogue.md R181). -/
def clearMask (k : ErrFlag) : Byte := ~~~(1#8 <<< k.index) &&& 0x0F#8

/-- One asserted flag is cleared by its own `SR2` write (43_epilogue.md R182). -/
def State.clearErr (s : State) (e : Nibble) (k : ErrFlag) : State :=
  if e.getLsbD k.index then s.writeReg .epiErr .sr2 (clearMask k) else s

/-- Each flag of the mask is cleared, in ascending bit order (43_epilogue.md R182). -/
def State.clearErrs (s : State) (e : Nibble) : State :=
  (((s.clearErr e .berr).clearErr e .arlo).clearErr e .af).clearErr e .ovr

/-- The Stop of the error epilogue: only while the role is Master (43_epilogue.md R183). -/
def State.stopOnError (s : State) : State :=
  match s.ctx.role with
  | .master => s.requestStop .epiErr
  | .slave => s

/-- `EPI_ERR` (43_epilogue.md R181 to R184). -/
def execEpiErr (e : Nibble) (s : State) : Result :=
  .next ((s.clearErrs e).stopOnError.emit .epiErr (.cbError e)).endEpiErr

/-- `EPI_STOP` (43_epilogue.md R185): read `CR2` and write it back unchanged. -/
def execEpiStop (s : State) : Result :=
  let c := s.regVal .cr2
  .next ((s.afterRead .epiStop .cr2).writeReg .epiStop .cr2 c).leaveService

end Sys2Proof.Machine
end

