-- ==== Sys2Proof/Machine/Master.lean ====
section
/-!
DEFINITION. The master branch of the service step (41_master_branch.md): one meaning per arm, run in phase
`Branch` after the dispatch read. Each ends with phase `EpiErr` coming next (60_exceptions.md R220).
-/

namespace Sys2Proof.Machine

/-- `M_START` (41_master_branch.md R131): read `SR1`, then write the address byte to `DR`. -/
def execMStart (s : State) : Result :=
  let t := Tag.arm .mStart
  let s := s.readScratch t .sr1
  needField s.ctx.peerAddress s fun peer =>
  needField s.ctx.direction s fun d =>
  .next (s.writeReg t .dr (addrByteOf peer d)).endBranch

/-- `M_ADDR` (41_master_branch.md R132): read `SR1`, then `SR3`, and reset the cursor. -/
def execMAddr (s : State) : Result :=
  let t := Tag.arm .mAddr
  .next (((s.readScratch t .sr1).readScratch t .sr3).setCursor 0).endBranch

/-- The completion test of `M_TX`, after the write in the same entry (41_master_branch.md R134, R136). -/
def mTxCompletion (length : Nat) (s : State) : Result :=
  let t := Tag.arm .mTx
  if s.ctx.cursor = length then
    let s := s.requestStop t
    needField s.ctx.masterBuffer s fun base =>
    .next ((s.emit t (.cbMasterWriteDone base length)).setRole .slave).endBranch
  else .next s.endBranch

/-- `M_TX` (41_master_branch.md R134). -/
def execMTx (s : State) : Result :=
  let t := Tag.arm .mTx
  needField s.ctx.masterLength s fun length =>
  if s.ctx.cursor < length then
    needField s.ctx.masterBuffer s fun base =>
    memRead t base s.ctx.cursor s fun v s =>
    mTxCompletion length (s.writeReg t .dr v).incCursor
  else mTxCompletion length s

/-- `M_TX_UNEXPECTED` (41_master_branch.md R137): the diagnostic and nothing else. -/
def execMTxUnexpected (s : State) : Result :=
  .next (s.emit (.arm .mTxUnexpected) (.diag .mTxUnexpected)).endBranch

/-- `M_TX_IDLE` (41_master_branch.md R138): nothing. -/
def execMTxIdle (s : State) : Result := .next s.endBranch

/-- The last part of `M_RX`: the increment, unconditional (41_master_branch.md R139). -/
def mRxEnd (s : State) : Result := .next s.incCursor.endBranch

/-- The completion and the defensive exit of `M_RX` (41_master_branch.md R140, R141). -/
def mRxCompletion (length : Nat) (s : State) : Result :=
  let t := Tag.arm .mRx
  if s.ctx.cursor = lastIndex s.cfg length then
    let s := (s.setAck t false).requestStop t
    needField s.ctx.masterBuffer s fun base =>
    mRxEnd ((s.emit t (.cbMasterReadDone base length)).setRole .slave)
  else if length ≤ s.ctx.cursor then mRxEnd ((s.setRole .slave).setAck t true)
  else mRxEnd s

/-- `M_RX` (41_master_branch.md R139). -/
def execMRx (s : State) : Result :=
  let t := Tag.arm .mRx
  let v := s.regVal .dr
  let s := s.afterRead t .dr
  needField s.ctx.masterLength s fun length =>
  if s.ctx.cursor < length then
    needField s.ctx.masterBuffer s fun base =>
    memWrite t base s.ctx.cursor v s fun s =>
    mRxCompletion length s
  else mRxCompletion length s

/-- `M_RX_IDLE` (41_master_branch.md R143): nothing, and no diagnostic. -/
def execMRxIdle (s : State) : Result := .next s.endBranch

end Sys2Proof.Machine
end

