-- ==== Sys2Proof/Machine/Slave.lean ====
section
/-!
DEFINITION. The slave branch of the service step (42_slave_branch.md): one meaning per arm, run in phase `Branch`
after the dispatch read. Each ends with phase `EpiErr` coming next (60_exceptions.md R220).
-/

namespace Sys2Proof.Machine

/-- `S_ADDR` (42_slave_branch.md R161). -/
def execSAddr (s : State) : Result :=
  let t := Tag.arm .sAddr
  .next ((((s.readScratch t .sr1).readScratch t .sr3).setAck t true).setCursor 0).endBranch

/-- `S_RX` (42_slave_branch.md R162, R163). -/
def execSRx (s : State) : Result :=
  let t := Tag.arm .sRx
  let v := s.regVal .dr
  let s := s.afterRead t .dr
  if s.ctx.cursor < s.ctx.slaveLength then
    needField s.ctx.slaveBuffer s fun base =>
    memWrite t base s.ctx.cursor v s fun s =>
    let s := s.incCursor
    .next (if s.ctx.cursor = s.ctx.slaveLength then s.emit t (.cbSlaveReceiveDone base s.ctx.slaveLength)
           else s).endBranch
  else .next s.endBranch

/-- `S_TX` (42_slave_branch.md R165, R166): of the flags it writes `TXE` alone, and a set `SB` stays set (R168). -/
def execSTx (s : State) : Result :=
  let t := Tag.arm .sTx
  if s.ctx.cursor < s.ctx.slaveLength then
    needField s.ctx.slaveBuffer s fun base =>
    memRead t base s.ctx.cursor s fun v s =>
    let s := (s.sendByte t v).incCursor
    .next (if s.ctx.cursor = s.ctx.slaveLength then s.emit t (.cbSlaveTransmitDone base s.ctx.slaveLength)
           else s).endBranch
  else .next (s.sendByte t 0x00#8).endBranch

/-- `S_IDLE` (42_slave_branch.md R167): nothing; in particular `SB` stays set (R168). -/
def execSIdle (s : State) : Result := .next s.endBranch

end Sys2Proof.Machine
end

