-- ==== Sys2Proof/Machine/Dispatch.lean ====
section
/-! DEFINITION. The dispatch: one arm per operation of spec/opcode_table.json, each one call of its meaning. -/

namespace Sys2Proof.Machine

/-- The meaning of an operation. -/
def exec (i : Instr) (s : State) : Host.Outcome State Fault Refusal :=
  match i with
  | .init => Sys2Proof.Machine.execInit s
  | .cfgSlave address buffer capacity => Sys2Proof.Machine.execCfgSlave address buffer capacity s
  | .armWrite peer buffer length => Sys2Proof.Machine.execArmWrite peer buffer length s
  | .armRead peer buffer length => Sys2Proof.Machine.execArmRead peer buffer length s
  | .mStart => Sys2Proof.Machine.execMStart s
  | .mAddr => Sys2Proof.Machine.execMAddr s
  | .mTx => Sys2Proof.Machine.execMTx s
  | .mTxUnexpected => Sys2Proof.Machine.execMTxUnexpected s
  | .mTxIdle => Sys2Proof.Machine.execMTxIdle s
  | .mRx => Sys2Proof.Machine.execMRx s
  | .mRxIdle => Sys2Proof.Machine.execMRxIdle s
  | .sAddr => Sys2Proof.Machine.execSAddr s
  | .sRx => Sys2Proof.Machine.execSRx s
  | .sTx => Sys2Proof.Machine.execSTx s
  | .sIdle => Sys2Proof.Machine.execSIdle s
  | .epiErr e => Sys2Proof.Machine.execEpiErr e s
  | .epiStop => Sys2Proof.Machine.execEpiStop s
  | .envStartdone => Sys2Proof.Machine.execEnvStartdone s
  | .envAddrack => Sys2Proof.Machine.execEnvAddrack s
  | .envAddrnack => Sys2Proof.Machine.execEnvAddrnack s
  | .envTxack => Sys2Proof.Machine.execEnvTxack s
  | .envTxnack => Sys2Proof.Machine.execEnvTxnack s
  | .envRxbyte b => Sys2Proof.Machine.execEnvRxbyte b s
  | .envStopdone f => Sys2Proof.Machine.execEnvStopdone f s
  | .envBusstart => Sys2Proof.Machine.execEnvBusstart s
  | .envMatch d => Sys2Proof.Machine.execEnvMatch d s
  | .envPeerstop => Sys2Proof.Machine.execEnvPeerstop s
  | .envErr k => Sys2Proof.Machine.execEnvErr k s

end Sys2Proof.Machine
end

