-- ==== Sys2Proof/Machine/Fetch.lean ====
section
/-!
DEFINITION. Selecting the next operation: which agent has the turn (log 1), the register read that begins each
engine phase (30_encoding.md R85, R88), the code it forms, and what happens to a code that selects nothing. Also
placing a code so that the very next step runs it.
-/

namespace Sys2Proof.Machine

/-- The dispatch word `r d s a t x p` (30_encoding.md R85); `d` counts only in Master role. -/
def dispatchWord (r : Role) (d : Direction) (sr1 : Byte) : DispatchWord :=
  BitVec.ofBool (r == .master) ++ BitVec.ofBool (r == .master && d.bit) ++ BitVec.ofBool (sr1.getLsbD 0) ++
    BitVec.ofBool (sr1.getLsbD 1) ++ BitVec.ofBool (sr1.getLsbD 7) ++ BitVec.ofBool (sr1.getLsbD 6) ++
    BitVec.ofBool (sr1.getLsbD 4)

/-- What a turn comes to. -/
inductive Fetched where
  /-- No operation is selected; this is the outcome. -/
  | quiet (o : Result)
  /-- A code was formed, in the state after the accesses that formed it. -/
  | code (c : Code) (s : State)
  /-- The operation under way goes on. -/
  | resume (i : Instr) (s : State)

/-- Phase `Branch`: read `SR1`, form the dispatch word (30_encoding.md R85). The direction is read in Master role
only. -/
def fetchBranch (s : State) : Fetched :=
  let sr1 := s.regVal .sr1
  let s := s.readScratch .dispatch .sr1
  match s.ctx.role with
  | .slave => .code (.dispatch (dispatchWord .slave .write sr1)) s
  | .master =>
    match s.ctx.direction with
    | some d => .code (.dispatch (dispatchWord .master d sr1)) s
    | none => .quiet (raiseFault .unwrittenRead s)

/-- The engine's turn (60_exceptions.md R220): service entry where an interrupt is pending (10_state.md R47), else
the phase `eng.phase` says, each beginning with its register read. -/
def engineTurn (s : State) : Fetched :=
  match s.eng with
  | .idle => .quiet (.next (if s.regs.pending then s.enterService else s))
  | .branch => fetchBranch s
  | .epiErr => .code (.epiErr ((s.regVal .sr2).extractLsb' 0 4)) (s.afterRead .epiErr .sr2)
  | .epiStop => .code (.epiStop (s.regVal .sr1)) (s.readScratch .epiStop .sr1)

/-- What goes on while no input is due: the engine's service step, else a pending interrupt is taken, else the
arming command under way goes on, else nothing happens (log 1, log 19). -/
def background (s : State) : Fetched :=
  if s.eng ≠ .idle ∨ s.regs.pending then engineTurn s
  else if s.call ≠ .ready then .resume (armingUnderWay s) s
  else .quiet (.next s)

/-- The caller can begin something new: no service step is running and its last command has returned
(40_host_commands.md R100, 60_exceptions.md R220). -/
def State.callerFree (s : State) : Bool := s.eng == .idle && s.call == .ready

/-- The caller's store into its own data memory (70_reset_and_hazards.md R247); outside the launch memory there is
nothing to store into. -/
def callerStore (a : Nat) (v : Byte) (s : State) : Result :=
  if s.hasAddr a then .next (s.storeByte a v) else .fault .stuck

/-- A body that would change the context, touch the registers or run a host command is refused by name; one that keeps to
its contract is not (60_exceptions.md R226). -/
def CallbackBody.refused : CallbackBody → Bool
  | .plain => false
  | .command _ => true
  | .changeContext => true
  | .touchRegister _ => true

/-- A callback body has no effect on the block; a refused one leaves its mark (60_exceptions.md R226). -/
def State.runBody (s : State) (b : CallbackBody) : State := if b.refused then s.mark .callbackReentry else s

/-- The next turn. A turn of the caller waits while a service step runs, and a new command or store waits until the
command before it has returned; the turn then stays where it is. -/
def fetch (s : State) : Fetched :=
  match s.turns with
  | [] => background s
  | .env m :: ts => .code (.env m) { s with turns := ts }
  | .engine :: ts => engineTurn { s with turns := ts }
  | .called a :: ts => .quiet (.next (State.sendAddress { s with turns := ts } a))
  | .callback b :: ts => .quiet (.next (State.runBody { s with turns := ts } b))
  | .command w :: ts => if s.callerFree then .code (.cmd w) { s with turns := ts } else background s
  | .store a v :: ts =>
    if s.callerFree then .quiet (callerStore a v { s with turns := ts }) else background s
  | .caller :: ts =>
    if s.eng ≠ .idle then engineTurn s
    else if s.call ≠ .ready then .resume (armingUnderWay s) { s with turns := ts }
    else .quiet (.next { s with turns := ts })

/-- What follows where a code selects no operation: a refused command sets its mark and has no other effect
(60_exceptions.md R218); an epilogue phase that is not selected moves on (43_epilogue.md R186). -/
def notDecoded (e : DecodeError) (s : State) : Result :=
  match e with
  | .reservedCommand op => .next (s.mark (.reservedCommand op))
  | .operandWidth => .next (s.mark .operandWidth)
  | .notSelected => .next s.skipPhase

/-! ### Placing a code as the next step's -/

/-- The event flags of a dispatch word, as `SR1` holds them (30_encoding.md R85). -/
def sr1OfWord (w : DispatchWord) : Byte :=
  let b := putBit 0x00#8 0 (w.getLsbD 4)
  let b := putBit b 1 (w.getLsbD 3)
  let b := putBit b 7 (w.getLsbD 2)
  let b := putBit b 6 (w.getLsbD 1)
  putBit b 4 (w.getLsbD 0)

/-- The role bit of a dispatch word. -/
def roleOfWord (w : DispatchWord) : Role := if w.getLsbD 6 then .master else .slave

/-- The direction a dispatch word asks for: written in Master role only. -/
def directionOfWord (w : DispatchWord) (old : Option Direction) : Option Direction :=
  if w.getLsbD 6 then some (.ofBit (w.getLsbD 5)) else old

/-- The state in which the very next step forms the code and runs it (log 15): the turn is put first, the agent
whose code it is stands where it forms it, and the flags the code is formed from are set. -/
def placeCode (c : Code) (s : State) : State :=
  match c with
  | .cmd w => { s with fault := none, eng := .idle, call := .ready, turns := .command w :: s.turns }
  | .dispatch w =>
    { s with
      fault := none, eng := .branch, turns := .engine :: s.turns
      ctx := { s.ctx with role := roleOfWord w, direction := directionOfWord w s.ctx.direction }
      regs := { s.regs with sr1 := sr1OfWord w } }
  | .epiErr e =>
    { s with
      fault := none, eng := .epiErr, turns := .engine :: s.turns
      regs := { s.regs with sr2 := e.setWidth 8 } }
  | .epiStop v =>
    { s with
      fault := none, eng := .epiStop, turns := .engine :: s.turns
      regs := { s.regs with sr1 := v } }
  | .env m => { s with fault := none, turns := .env m :: s.turns }

end Sys2Proof.Machine
end

