-- ==== Sys2Proof/Machine/Step.lean ====
section
/-! DEFINITION. One step of the block: nothing after a fault, else fetch, decode and exec. -/

namespace Sys2Proof.Machine

/-- What the turn comes to, run. -/
def run (f : Fetched) : Host.Outcome State Fault Refusal :=
  match f with
  | .quiet o => o
  | .resume i s => exec i s
  | .code c s =>
    match decode s.cfg c with
    | .ok i => exec i s
    | .error e => notDecoded e s

/-- One step: no agent steps after a fault (10_state.md R48); else the next turn is taken. -/
def step (s : State) : Host.Outcome State Fault Refusal :=
  match s.fault with
  | some r => .fault (.halted r)
  | none => run (fetch s)

/-- `s` with the instruction of a bare table word placed where the next step takes it; a word that is no code
leaves `s` as it is. -/
def State.withFetchWord (s : State) (nbits w : Nat) : State :=
  match tableCode nbits w with
  | none => s
  | some c => placeCode c s

end Sys2Proof.Machine
end

