-- ==== Sys2Proof/Machine/Buses.lean ====
section
/-!
DEFINITION. Several buses (60_exceptions.md R233): one independent copy of the block per bus. The copies share only
the processor, so a service step that has begun on one bus ends before the processor runs another copy.
-/

namespace Sys2Proof.Machine

/-- The next turn of a copy is a move of its own bus environment, which needs no processor. -/
def State.envIsNext (s : State) : Bool :=
  match s.turns with
  | .env _ :: _ => true
  | .called _ :: _ => true
  | _ => false

/-- No other copy than number `i` is inside a service step. DESIGN CHOICE (log 24): a copy whose engine has stopped inside
a service step, by a fault or stuck, still holds the processor, so callers and engines of the other copies do not go
on; their environments do. -/
def othersIdle (buses : List State) (i : Nat) : Bool :=
  (buses.eraseIdx i).all (fun s => s.eng == .idle)

/-- One step of copy `i`; `none` where the copy is not there or the processor is inside another copy's service step.
DESIGN CHOICE (log 24): the caller may run a copy's command while another copy's arming command is between its phases,
since R233 keeps service steps apart and says nothing of callers. Which copy is chosen is free step by step; a run that
never chooses a copy whose service stays pending is not admitted (`AdmittedBusRun`, R224). -/
def stepBus (buses : List State) (i : Nat) : Option (Host.Outcome (List State) Fault Refusal) :=
  match buses[i]? with
  | none => none
  | some s =>
    if s.envIsNext || othersIdle buses i then
      some (match step s with
            | .next t => .next (buses.set i t)
            | .fault r => .fault r
            | .refused r => .refused r)
    else none

end Sys2Proof.Machine
end

