-- ==== Sys2Proof/Machine/Runs.lean ====
section
/-!
DEFINITION. Infinite runs, and which of them the spec admits: those that are fair to a pending service step
(60_exceptions.md R224, 44_bus_environment.md R202). Inputs may arrive after any step. No fairness is asked of the bus
environment or of the caller's spin (R202).
-/

namespace Sys2Proof.Machine

/-- Inputs arrive: turns after those already due (log 1). -/
def State.arrive (s : State) (us : List Turn) : State := { s with turns := s.turns ++ us }

/-- A service step can begin: `pending = 1` and `eng.phase = Idle` (10_state.md R47). -/
def State.awaitsService (s : State) : Bool := s.eng == .idle && s.regs.pending

/-! ### One copy of the block -/

/-- A run: each state is a step of the one before it, with what has arrived meanwhile. -/
def Run (r : Nat → State) : Prop := ∀ n, ∃ t us, step (r n) = .next t ∧ r (n + 1) = t.arrive us

/-- A run in which nothing arrives. -/
def ClosedRun (r : Nat → State) : Prop := ∀ n, step (r n) = .next (r (n + 1))

/-- Weak fairness of service: a service step does not stay possible for ever without beginning
(60_exceptions.md R224). From a state in which it can begin, it either begins or its flags are cleared first. -/
def FairService (r : Nat → State) : Prop := ∀ n, ∃ m, n ≤ m ∧ (r m).awaitsService = false

/-- The runs the spec admits: "A run in which service is pending for ever and never taken is not admitted"
(60_exceptions.md R224). -/
def AdmittedRun (r : Nat → State) : Prop := Run r ∧ FairService r

/-! ### Several copies on one processor -/

/-- A run of several copies, with the copy chosen at each step. -/
def BusRun (r : Nat → List State) (who : Nat → Nat) : Prop :=
  ∀ n, ∃ bs us, stepBus (r n) (who n) = some (.next bs) ∧ List.length us = bs.length ∧
    r (n + 1) = List.zipWith State.arrive bs us

/-- Weak fairness of service for every copy: the choice of the copy leaves none out whose service stays pending
(60_exceptions.md R224, R233). -/
def FairBuses (r : Nat → List State) : Prop :=
  ∀ j n : Nat, ∃ m : Nat, n ≤ m ∧ ∀ s : State, (r m)[j]? = some s → s.awaitsService = false

/-- The runs of several copies the spec admits. -/
def AdmittedBusRun (r : Nat → List State) (who : Nat → Nat) : Prop := BusRun r who ∧ FairBuses r

end Sys2Proof.Machine
end

