-- ==== Sys2Proof/Safety.lean ====
section
/-!
DEFINITION. The terms claims are stated in: the implicit states (10_state.md R50), the launch premise `Booted` and
the premise `ConformingEnv` (70_reset_and_hazards.md R243, 44_bus_environment.md R200), counting events by who made
them (10_state.md R45), and the invariants.
-/

namespace Sys2Proof.Machine

/-! ### Implicit states (10_state.md R50) -/

/-- Master-Start. -/
def State.masterStart (s : State) : Bool := s.ctx.role == .master && (s.regs.start || s.regs.sb)

/-- Master-AddrPhase. -/
def State.masterAddrPhase (s : State) : Bool := s.ctx.role == .master && s.regs.addr

/-- Master-Transfer. -/
def State.masterTransfer (s : State) : Bool := s.ctx.role == .master && !s.regs.sb && !s.regs.addr

/-- Slave-AddrPhase. -/
def State.slaveAddrPhase (s : State) : Bool := s.ctx.role == .slave && s.regs.addr

/-- Following the trace: whether the `STOPF` latch is armed, and whether an `S_ADDR` arm has run since `STOPF` was
last cleared (10_state.md R41, R50; log 22). -/
def slaveTransferStep (st : Bool × Bool) (e : Entry) : Bool × Bool :=
  match e.event with
  | .regRd .sr1 v => (st.1 || v.getLsbD 4, st.2)
  | .regWr .cr2 _ =>
    let open_ := if st.1 then false else st.2
    (false, if e.tag = .arm .sAddr then true else open_)
  | _ => st

/-- Slave-Transfer: Slave role, after an `S_ADDR` arm and before the next `STOPF` clear. -/
def State.slaveTransfer (s : State) : Bool :=
  s.ctx.role == .slave && (s.trace.foldl slaveTransferStep (false, false)).2

/-- Slave-Listening: Slave role, with no transfer in progress. -/
def State.slaveListening (s : State) : Bool :=
  s.ctx.role == .slave && !s.slaveAddrPhase && !s.slaveTransfer

/-! ### Premises of claims -/

/-- `INIT` has run: what it leaves and no other command writes (70_reset_and_hazards.md R242, step 2). -/
structure Initialised (s : State) : Prop where
  pe : s.regs.pe = true
  itr : s.regs.itr = 0x07#8
  freqr : s.regs.freqr = s.cfg.timing.freq
  ccr : s.regs.ccr = s.cfg.timing.ccr
  triser : s.regs.triser = s.cfg.timing.trise

/-- `CFG_SLAVE address, buffer, capacity` has run after it, so `OAR` still holds the address
(70_reset_and_hazards.md R242, step 3). -/
structure ConfiguredAs (address : Addr7) (buffer capacity : Nat) (s : State) : Prop where
  oar : s.regs.oar = ownAddrByte address
  buffer : s.ctx.slaveBuffer = some buffer
  capacity : s.ctx.slaveLength = capacity
  role : s.ctx.role = .slave
  ack : s.regs.ack = true

/-- No agent is at work and nothing is pending (70_reset_and_hazards.md R243). -/
structure Quiet (s : State) : Prop where
  eng : s.eng = .idle
  call : s.call = .ready
  sr1 : s.regs.sr1 = 0#8
  sr2 : s.regs.sr2 = 0#8
  sr3 : s.regs.sr3 = 0#8
  fault : s.fault = none

/-- `Booted(address, buffer, capacity)` (70_reset_and_hazards.md R243, 95_test_vectors.md section 0): steps 1 to 3 of R242
are done and the block is quiet. A property that needs a conforming environment takes `ConformingEnv` beside it. -/
structure Booted (address : Addr7) (buffer capacity : Nat) (s : State) : Prop where
  init : Initialised s
  slave : ConfiguredAs address buffer capacity s
  quiet : Quiet s

/-- `Booted` for a device that does not answer as a slave, for which R242 asks no `CFG_SLAVE`. -/
structure BootedMaster (s : State) : Prop where
  init : Initialised s
  quiet : Quiet s

/-- `ConformingEnv` at one step: an environment move is taken only where its guard holds
(44_bus_environment.md R200). -/
def ConformingEnv (s : State) : Prop :=
  ∀ m ts, s.turns = .env m :: ts → envGuard m s = true

/-- The number of trace entries that satisfy a test (10_state.md R45). -/
def State.count (s : State) (p : Entry → Bool) : Nat := s.trace.countP p

/-- An entry is a write of `DR` by a master arm other than the address write (70_reset_and_hazards.md R251). -/
def isMasterDataWrite (e : Entry) : Bool :=
  match e.tag, e.event with
  | .arm .mTx, .regWr .dr _ => true
  | _, _ => false

/-! ### Frames -/

/-- The parameters, the turns due, the fault and the refusal marks are as before. -/
def SameRest (s t : State) : Prop :=
  t.cfg = s.cfg ∧ t.turns = s.turns ∧ t.fault = s.fault ∧ t.refusals = s.refusals

/-- Every byte of the caller's data memory reads as before. -/
def SameMemory (s t : State) : Prop := ∀ a, t.byteAt a = s.byteAt a

/-- Every byte but the one at `a` reads as before. -/
def SameMemoryBut (a : Nat) (s t : State) : Prop := ∀ b, b ≠ a → t.byteAt b = s.byteAt b

/-- The trace has grown by these events, in this order, all made by `k`. -/
def Appends (k : Tag) (es : List Event) (s t : State) : Prop := t.trace = s.trace ++ es.map (Entry.mk k)

/-- `SR1` after a write of `CR2`: `STOPF` is cleared where its latch is armed (10_state.md R41). -/
def sr1AfterCr2 (s : State) : Byte := if s.seq.stopArmed then putBit s.regs.sr1 4 false else s.regs.sr1

/-- `SR1` after a write of `DR`: `TXE` is cleared, and `SB` where its latch is armed (10_state.md R41). -/
def sr1AfterDr (s : State) : Byte :=
  if s.seq.sbArmed then putBit (putBit s.regs.sr1 7 false) 0 false else putBit s.regs.sr1 7 false

/-- The environment after a write of `DR`: a byte that cleared `SB` is the address byte to answer. -/
def envAfterDr (s : State) (v : Byte) : Env :=
  if s.seq.sbArmed then { s.env with addrByte := v, addrPhase := .sent } else s.env

/-- The three latches after a read of `SR1` (10_state.md R41). -/
def latchesAfterSr1 (s : State) : Latches :=
  ⟨s.seq.sbArmed || s.regs.sb, s.seq.addrArmed || s.regs.addr, s.seq.stopArmed || s.regs.stopf⟩

/-! ### Invariants -/

/-- The values of the context fit their fields (10_state.md R23 to R26). -/
structure WidthsFit (s : State) : Prop where
  cursor : s.ctx.cursor < s.cfg.lenSpan
  slaveLength : s.ctx.slaveLength < s.cfg.lenSpan
  masterLength : ∀ n, s.ctx.masterLength = some n → n < s.cfg.lenSpan
  masterBuffer : ∀ b, s.ctx.masterBuffer = some b → b < s.cfg.addrSpan
  slaveBuffer : ∀ b, s.ctx.slaveBuffer = some b → b < s.cfg.addrSpan

/-- The bits no register implements are 0 (10_state.md R32 to R40). -/
structure ReservedZero (g : Regs) : Prop where
  cr1 : g.cr1 &&& ~~~(implMask .cr1) = 0#8
  cr2 : g.cr2 &&& ~~~(implMask .cr2) = 0#8
  oar : g.oar &&& ~~~(implMask .oar) = 0#8
  sr1 : g.sr1 &&& ~~~(implMask .sr1) = 0#8
  sr2 : g.sr2 &&& ~~~(implMask .sr2) = 0#8
  sr3 : g.sr3 &&& ~~~(implMask .sr3) = 0#8
  itr : g.itr &&& ~~~(implMask .itr) = 0#8

/-- A latch is set only while its flag is (10_state.md R41). -/
structure LatchesUnderFlags (s : State) : Prop where
  sb : s.seq.sbArmed = true → s.regs.sb = true
  addr : s.seq.addrArmed = true → s.regs.addr = true
  stop : s.seq.stopArmed = true → s.regs.stopf = true

/-- In Master role every context field the master branch reads has been written, and the cursor has not reached the
length (10_state.md R29, 41_master_branch.md R135, R142). -/
def MasterArmed (s : State) : Prop :=
  s.ctx.role = .master →
    s.ctx.direction.isSome ∧ s.ctx.peerAddress.isSome ∧ s.ctx.masterBuffer.isSome ∧
      ∃ n, s.ctx.masterLength = some n ∧ (s.ctx.cursor < n ∨ s.ctx.cursor = 0)

/-- The slave buffer has been written wherever the slave branch can read it (10_state.md R51). -/
def SlaveConfigured (s : State) : Prop := s.ctx.slaveBuffer = none → s.ctx.slaveLength = 0

/-- At most one copy of the block is inside a service step (60_exceptions.md R233). -/
def OneInService (buses : List State) : Prop :=
  ∀ (i j : Nat) (s t : State), buses[i]? = some s → buses[j]? = some t → s.eng ≠ .idle → t.eng ≠ .idle → i = j

end Sys2Proof.Machine
end

