-- ==== Sys2Proof/Certificates/Slice0/Obligations.lean ====
section
/-!
DEFINITION. The statements for the provers, from the numbered rules of spec/. Bits of registers are named by their
positions in 10_state.md R32 to R40: `SR1` SB 0, ADDR 1, STOPF 4, RXNE 6, TXE 7; `CR2` START 0, STOP 1, ACK 2.
-/

open Sys2Proof Sys2Proof.Machine

/-! ### Encodings -/

/-- Decoding the code of a well-formed operation gives it back, with every operand (30_encoding.md R86 to R91). -/
def Obligations.DecodeEncode : Prop :=
  ∀ (c : Config) (i : Instr), i.wellFormed c = true → decode c (encode i) = .ok i

/-- A few words written out from the spec's encodings decode to what they stand for (30_encoding.md R86, R88, R89). -/
def Obligations.DecodeSpecWords : Prop :=
  ∀ c : Config, 8 ≤ c.lenBits → 16 ≤ c.addrBits →
    decode c (.cmd ⟨0b0010#4, 0x20, 0x2000, 4⟩) = .ok (.cfgSlave 0x20#7 0x2000 4) ∧
    decode c (.cmd ⟨0b0101#4, 0x50, 0x1000, 2⟩) = .ok (.armRead 0x50#7 0x1000 2) ∧
    decode c (.dispatch 0b1011111#7) = .ok .mStart ∧
    decode c (.dispatch 0b1000111#7) = .ok .mTx ∧
    decode c (.dispatch 0b1100110#7) = .ok .mRx ∧
    decode c (.dispatch 0b0000101#7) = .ok .sTx ∧
    decode c (.epiErr 0b1001#4) = .ok (.epiErr 0b1001#4) ∧
    decode c (.epiStop 0b00010000#8) = .ok .epiStop ∧
    decode c (.env (.rxbyte 0x5A#8)) = .ok (.envRxbyte 0x5A#8) ∧
    decode c (.env (.err 0b01#2)) = .ok (.envErr .arlo)

/-- The command decoder: the four opcodes with operands that fit, taken as given, a wide operand refused, and every
other opcode refused by name (30_encoding.md R90, R91). -/
def Obligations.CommandDecoding : Prop :=
  ∀ (c : Config) (w : CmdWord),
    let fits := w.addr < 0x80 ∧ w.buf < 2 ^ c.addrBits ∧ w.len < 2 ^ c.lenBits
    let a := BitVec.ofNat 7 w.addr
    (w.op = 0b0001#4 → decode c (.cmd w) = .ok .init) ∧
    (w.op = 0b0010#4 → fits → decode c (.cmd w) = .ok (.cfgSlave a w.buf w.len)) ∧
    (w.op = 0b0100#4 → fits → decode c (.cmd w) = .ok (.armWrite a w.buf w.len)) ∧
    (w.op = 0b0101#4 → fits → decode c (.cmd w) = .ok (.armRead a w.buf w.len)) ∧
    (w.op = 0b0010#4 ∨ w.op &&& 0b1110#4 = 0b0100#4 → ¬ fits → decode c (.cmd w) = .error .operandWidth) ∧
    (w.op ≠ 0b0001#4 → w.op ≠ 0b0010#4 → w.op &&& 0b1110#4 ≠ 0b0100#4 →
      decode c (.cmd w) = .error (.reservedCommand w.op))

/-- Which arm the flags select, in the order of 60_exceptions.md R219: in Master role `SB`, then `ADDR`, then the
data flag of the direction; in Slave role `ADDR`, then `RXNE`, then `TXE` (30_encoding.md R85 to R87). -/
def Obligations.DispatchPriority : Prop :=
  ∀ (r : Role) (d : Direction) (g : Regs),
    dispatchArm (dispatchWord r d g.sr1) =
      match r with
      | .master =>
        if g.sb then .mStart else if g.addr then .mAddr
        else match d with
          | .write => if g.txe then .mTx else if g.stopf then .mTxIdle else .mTxUnexpected
          | .read => if g.rxne then .mRx else .mRxIdle
      | .slave =>
        if g.addr then .sAddr else if g.rxne then .sRx else if g.txe then .sTx else .sIdle

/-! ### The step -/

/-- A step without a recorded fault runs what the turn comes to: a decoded operation on the state after its fetch,
the operation under way, or nothing but the outcome fetched. The fetch of a command, of a move and of each engine
phase is the turn taken off the list and the phase's own read. In Slave role the direction is not read
(30_encoding.md R85); in Master role an unwritten direction is recorded as a fault, in a next state (log 8). -/
def Obligations.StepRunsDecoded : Prop :=
  ∀ s : State, s.fault = none →
    (∀ c s' i, fetch s = .code c s' → decode s'.cfg c = .ok i → step s = exec i s') ∧
    (∀ i s', fetch s = .resume i s' → step s = exec i s') ∧
    (∀ o, fetch s = .quiet o → step s = o) ∧
    (∀ m ts, s.turns = .env m :: ts → step s = exec (decodeEnv m) { s with turns := ts }) ∧
    (∀ w ts, s.turns = .command w :: ts → s.eng = .idle → s.call = .ready →
      fetch s = .code (.cmd w) { s with turns := ts }) ∧
    (∀ ts d, s.turns = .engine :: ts → s.eng = .branch → s.ctx.direction = some d →
      step s = exec (dispatchArm (dispatchWord s.ctx.role d (s.regs.sr1 &&& 0xD3#8))).instr
        (State.readScratch { s with turns := ts } .dispatch .sr1)) ∧
    (∀ ts, s.turns = .engine :: ts → s.eng = .branch → s.ctx.role = .slave →
      step s = exec (dispatchArm (dispatchWord .slave .write (s.regs.sr1 &&& 0xD3#8))).instr
        (State.readScratch { s with turns := ts } .dispatch .sr1)) ∧
    (∀ ts, s.turns = .engine :: ts → s.eng = .branch → s.ctx.role = .master → s.ctx.direction = none →
      ∃ t, step s = .next t ∧ t.fault = some .unwrittenRead)

/-- A refused command has no effect but its mark; nor has a callback body that runs a command, changes the context or
touches a register, while one that keeps to its contract has no effect at all; and a mark once set is kept
(60_exceptions.md R218, R226). That the machine goes on and keeps a list of marks is the model's choice
(log 10). -/
def Obligations.RefusalsMarkOnly : Prop :=
  (∀ (s : State) (w : CmdWord) (ts : List Turn), s.fault = none → s.eng = .idle → s.call = .ready →
    s.turns = .command w :: ts →
      (∀ op, decode s.cfg (.cmd w) = .error (.reservedCommand op) →
        step s = .next { s with turns := ts, refusals := s.refusals ++ [.reservedCommand op] }) ∧
      (decode s.cfg (.cmd w) = .error .operandWidth →
        step s = .next { s with turns := ts, refusals := s.refusals ++ [.operandWidth] })) ∧
  (∀ (s : State) (b : CallbackBody) (ts : List Turn), s.fault = none → s.turns = .callback b :: ts →
    (b = .plain → step s = .next { s with turns := ts }) ∧
    (b ≠ .plain → step s = .next { s with turns := ts, refusals := s.refusals ++ [.callbackReentry] })) ∧
  (∀ s t : State, step s = .next t → s.refusals <+: t.refusals)

/-- A service step begins only from `Idle` with an interrupt pending; where nothing is pending any more, none begins
(10_state.md R47). That service entry is a step of its own, in which only `eng.phase` moves, is the model's choice
(log 7). A run in which nothing more arrives is fair to a pending service step, so it is one the spec admits
(60_exceptions.md R224), by the order in which the model's steps take turns (log 19). -/
def Obligations.ServiceEntry : Prop :=
  (∀ (s : State) (ts : List Turn), s.fault = none → s.turns = .engine :: ts → s.eng = .idle →
    (s.regs.pending = true → step s = .next { s with turns := ts, eng := .branch }) ∧
    (s.regs.pending = false → step s = .next { s with turns := ts })) ∧
  (∀ s t : State, step s = .next t → s.eng ≠ .branch → t.eng = .branch →
    s.eng = .idle ∧ s.regs.pending = true) ∧
  (∀ r : Nat → State, ClosedRun r → AdmittedRun r)

/-- Inside a service step a turn of the caller waits and `call.phase` stays, and `eng.phase` stays or goes on in the order
Branch, EpiErr, EpiStop, Idle (60_exceptions.md R220, R223, R228). -/
def Obligations.ServiceOrder : Prop :=
  ∀ s t : State, step s = .next t → s.eng ≠ .idle →
    t.call = s.call ∧
    (∀ u ts, s.turns = u :: ts → (u = .caller ∨ (∃ w, u = .command w) ∨ ∃ a v, u = .store a v) → t.turns = s.turns) ∧
    (t.eng = s.eng ∨ (s.eng = .branch ∧ t.eng = .epiErr) ∨ (s.eng = .epiErr ∧ t.eng = .epiStop) ∨
      (s.eng = .epiStop ∧ t.eng = .idle))

/-- A recorded fault is never cleared and no agent steps after it; at reset there is none (10_state.md R48). -/
def Obligations.FaultIsFinal : Prop :=
  State.reset.fault = none ∧
  (∀ (s : State) (r : FaultReason), s.fault = some r → step s = .fault (.halted r)) ∧
  (∀ (i : Instr) (s t : State) (r : FaultReason), exec i s = .next t → s.fault = some r → t.fault = some r)

/-! ### Reset -/

/-- The reset values of the context, the registers, the latches, the phases, the fault and the trace, for every
configuration (10_state.md R51, R52). The registers' values are the spec's own choice, "from general knowledge, not in
source" (R52, log 26). -/
def Obligations.ResetValues : Prop :=
  ∀ c : Config, ∃ s : State, State.resetWith c = s ∧
    s.ctx.role = .slave ∧ s.ctx.direction = none ∧ s.ctx.peerAddress = none ∧ s.ctx.masterBuffer = none ∧
    s.ctx.masterLength = none ∧ s.ctx.slaveBuffer = none ∧ s.ctx.slaveLength = 0 ∧ s.ctx.cursor = 0 ∧
    s.ctx.scratch = none ∧
    s.regs.cr1 = 0x00#8 ∧ s.regs.cr2 = 0x00#8 ∧ s.regs.oar = 0x00#8 ∧ s.regs.dr = 0x00#8 ∧ s.regs.sr1 = 0x00#8 ∧
    s.regs.sr2 = 0x00#8 ∧ s.regs.sr3 = 0x00#8 ∧ s.regs.itr = 0x00#8 ∧
    s.seq = ⟨false, false, false⟩ ∧ s.eng = .idle ∧ s.call = .ready ∧ s.fault = none ∧ s.trace = []

/-- From the reset state of every configuration `INIT` and then `CFG_SLAVE` reach `Booted(address, buffer, capacity)`
(70_reset_and_hazards.md R242, R243). -/
def Obligations.BootReached : Prop :=
  ∀ (c : Config) (a : Addr7) (buffer capacity : Nat), ∃ t u : State,
    exec .init (State.resetWith c) = .next t ∧ BootedMaster t ∧
    exec (.cfgSlave a buffer capacity) t = .next u ∧ Booted a buffer capacity u

/-! ### The register interface -/

/-- What an access does to the event flags and the clear latches, for every register: each flag is cleared only as
listed, and a read of `SR1` arms the latches (10_state.md R41, 20_memory.md R67). -/
def Obligations.EventFlagClears : Prop :=
  ∀ (s : State) (k : Tag) (r : RegName) (v : Byte), ∃ w d : State, s.writeReg k r v = w ∧ s.afterRead k r = d ∧
    (w.regs.sb = true ↔ s.regs.sb = true ∧ ¬ (r = .dr ∧ s.seq.sbArmed = true)) ∧
    (w.regs.stopf = true ↔ s.regs.stopf = true ∧ ¬ (r = .cr2 ∧ s.seq.stopArmed = true)) ∧
    (w.regs.txe = true ↔ s.regs.txe = true ∧ r ≠ .dr) ∧
    w.regs.addr = s.regs.addr ∧ w.regs.rxne = s.regs.rxne ∧
    w.seq = (if r = .dr then { s.seq with sbArmed := false }
             else if r = .cr2 then { s.seq with stopArmed := false } else s.seq) ∧
    (d.regs.addr = true ↔ s.regs.addr = true ∧ ¬ (r = .sr3 ∧ s.seq.addrArmed = true)) ∧
    (d.regs.rxne = true ↔ s.regs.rxne = true ∧ r ≠ .dr) ∧
    d.regs.sb = s.regs.sb ∧ d.regs.stopf = s.regs.stopf ∧ d.regs.txe = s.regs.txe ∧
    d.seq = (if r = .sr1 then latchesAfterSr1 s
             else if r = .sr3 then { s.seq with addrArmed := false } else s.seq)

/-- A write of `SR2` clears exactly the error flags whose bit is written 0, and sets none (10_state.md R42). -/
def Obligations.ErrorFlagClear : Prop :=
  ∀ (s : State) (k : Tag) (v : Byte) (j : ErrFlag),
    (s.writeReg k .sr2 v).regs.err j = (s.regs.err j && v.getLsbD j.index)

/-- Interrupt pending, by bits (10_state.md R46). -/
def Obligations.InterruptPending : Prop :=
  ∀ g : Regs, ∃ evt buf err : Bool,
    evt = (g.sr1.getLsbD 0 || g.sr1.getLsbD 1 || g.sr1.getLsbD 4) ∧ buf = (g.sr1.getLsbD 7 || g.sr1.getLsbD 6) ∧
    (err = true ↔ g.sr2 &&& 0x0F#8 ≠ 0#8) ∧
    g.pending = (g.cr1.getLsbD 0 &&
      ((g.itr.getLsbD 1 && (evt || (g.itr.getLsbD 2 && buf))) || (g.itr.getLsbD 0 && err)))

/-! ### Host commands -/

/-- `INIT` (40_host_commands.md R102): what it writes, in order; `CR2`, `SR1`, `SR2` and the context unchanged. -/
def Obligations.InitResult : Prop :=
  ∀ s : State, ∃ t : State, exec .init s = .next t ∧
    t.regs = { s.regs with
      cr1 := 0x01#8, itr := 0x07#8, oar := s.cfg.ownAddr ++ 0#1, freqr := s.cfg.timing.freq
      ccr := s.cfg.timing.ccr, triser := s.cfg.timing.trise } ∧
    Appends (.command .init)
      [.regWr .itr 0x00#8, .regWr .freqr s.cfg.timing.freq, .regWr .ccr s.cfg.timing.ccr,
        .regWr .triser s.cfg.timing.trise, .regWr .oar (s.cfg.ownAddr ++ 0#1), .regWr .itr 0x07#8,
        .regWr .cr1 0x01#8] s t ∧
    t.ctx = s.ctx ∧ t.seq = s.seq ∧ t.eng = s.eng ∧ t.call = s.call ∧ t.env = s.env ∧ SameMemory s t ∧ SameRest s t

/-- `CFG_SLAVE` (40_host_commands.md R104): the own address, the buffer, the capacity, the role and `ACK`; the cursor
and every other context field unchanged. The `CR2` write also completes a `STOPF` clear that is armed (10_state.md
R41). -/
def Obligations.CfgSlaveResult : Prop :=
  ∀ (s : State) (a : Addr7) (buffer capacity : Nat), ∃ t : State,
    exec (.cfgSlave a buffer capacity) s = .next t ∧
    t.regs = { s.regs with
      oar := a ++ 0#1, cr2 := putBit (s.regs.cr2 &&& 0x07#8) 2 true, sr1 := sr1AfterCr2 s } ∧
    t.ctx = { s.ctx with slaveBuffer := some buffer, slaveLength := capacity, role := .slave } ∧
    Appends (.command .cfgSlave)
      [.regWr .oar (a ++ 0#1), .regWr .cr2 (putBit (s.regs.cr2 &&& 0x07#8) 2 true), .ackSet true] s t ∧
    t.seq = { s.seq with stopArmed := false } ∧ t.eng = s.eng ∧ t.call = s.call ∧ t.env = s.env ∧
    SameMemory s t ∧ SameRest s t

/-- Arming, phase A: `ARM_WRITE` and `ARM_READ` from `Ready` record the context, take the role and wait; nothing else
changes (40_host_commands.md R107). -/
def Obligations.ArmRecords : Prop :=
  ∀ (s : State) (peer : Addr7) (buffer length : Nat), s.call = .ready →
    exec (.armWrite peer buffer length) s = .next { s with
      ctx := { s.ctx with
        direction := some .write, peerAddress := some peer, masterBuffer := some buffer, masterLength := some length
        cursor := 0, role := .master }
      call := .armWait } ∧
    exec (.armRead peer buffer length) s = .next { s with
      ctx := { s.ctx with
        direction := some .read, peerAddress := some peer, masterBuffer := some buffer, masterLength := some length
        cursor := 0, role := .master }
      call := .armWait }

/-- Arming, phase B: one `SR3` read; the spin goes on while `BUSY = 1`; the read completes an armed `ADDR` clear
(40_host_commands.md R108, 10_state.md R41). -/
def Obligations.ArmSpins : Prop :=
  ∀ (s : State) (i : Instr) (k : Command) (peer : Addr7) (buffer length : Nat), s.call = .armWait →
    (i = .armWrite peer buffer length ∧ k = .armWrite) ∨ (i = .armRead peer buffer length ∧ k = .armRead) →
    ∃ t : State, exec i s = .next t ∧
      t.call = (if s.regs.busy then .armWait else .armIssue) ∧
      t.ctx = { s.ctx with scratch := some (s.regs.sr3 &&& 0x07#8) } ∧
      t.regs = { s.regs with sr1 := if s.seq.addrArmed then putBit s.regs.sr1 1 false else s.regs.sr1 } ∧
      t.seq = { s.seq with addrArmed := false } ∧
      Appends (.command k) [.regRd .sr3 (s.regs.sr3 &&& 0x07#8)] s t ∧
      t.eng = s.eng ∧ t.env = s.env ∧ SameMemory s t ∧ SameRest s t

/-- Arming, phase C: `ACK` is set, then `START`, and the command returns (40_host_commands.md R109). -/
def Obligations.ArmIssues : Prop :=
  ∀ (s : State) (i : Instr) (k : Command) (peer : Addr7) (buffer length : Nat), s.call = .armIssue →
    (i = .armWrite peer buffer length ∧ k = .armWrite) ∨ (i = .armRead peer buffer length ∧ k = .armRead) →
    ∃ t : State, exec i s = .next t ∧
      t.call = .ready ∧ t.ctx = s.ctx ∧
      t.regs = { s.regs with
        cr2 := putBit (putBit (s.regs.cr2 &&& 0x07#8) 2 true) 0 true, sr1 := sr1AfterCr2 s } ∧
      t.seq = { s.seq with stopArmed := false } ∧
      Appends (.command k)
        [.regWr .cr2 (putBit (s.regs.cr2 &&& 0x07#8) 2 true), .ackSet true,
          .regWr .cr2 (putBit (putBit (s.regs.cr2 &&& 0x07#8) 2 true) 0 true), .startReq] s t ∧
      t.eng = s.eng ∧ t.env = s.env ∧ SameMemory s t ∧ SameRest s t

/-! ### Master branch -/

/-- `M_START` (41_master_branch.md R131) with `SB = 1`: `SR1` is read, then the address byte of 30_encoding.md R81 is
written to `DR`, which clears `SB` and `TXE`; an unwritten peer address or direction faults. `ADDR`, if set too, is
left and its latch armed. -/
def Obligations.MStartResult : Prop :=
  ∀ s : State, s.regs.sb = true →
    (∀ (peer : Addr7) (d : Direction), s.ctx.peerAddress = some peer → s.ctx.direction = some d →
      ∃ (t : State) (b : Byte), exec .mStart s = .next t ∧
        b = (peer.setWidth 8 <<< 1) ||| (if d = .read then 1#8 else 0#8) ∧
        t.regs = { s.regs with dr := b, sr1 := putBit (putBit s.regs.sr1 7 false) 0 false } ∧
        t.seq = { latchesAfterSr1 s with sbArmed := false } ∧
        t.env = { s.env with addrByte := b, addrPhase := .sent } ∧
        t.ctx = { s.ctx with scratch := some (s.regs.sr1 &&& 0xD3#8) } ∧
        Appends (.arm .mStart) [.regRd .sr1 (s.regs.sr1 &&& 0xD3#8), .regWr .dr b] s t ∧
        t.eng = .epiErr ∧ t.call = s.call ∧ SameMemory s t ∧ SameRest s t) ∧
    (s.ctx.peerAddress = none ∨ s.ctx.direction = none → s.fault = none →
      ∃ t : State, exec .mStart s = .next t ∧ t.fault = some .unwrittenRead ∧ t.regs = s.regs ∧ t.eng = s.eng)

/-- `M_ADDR` (41_master_branch.md R132): `SR1` then `SR3` are read, `ADDR` is clear after it, the cursor is 0. -/
def Obligations.MAddrResult : Prop :=
  ∀ s : State, ∃ t : State, exec .mAddr s = .next t ∧
    t.regs = { s.regs with sr1 := putBit s.regs.sr1 1 false } ∧
    t.seq = { latchesAfterSr1 s with addrArmed := false } ∧
    t.ctx = { s.ctx with cursor := 0, scratch := some (s.regs.sr3 &&& 0x07#8) } ∧
    Appends (.arm .mAddr) [.regRd .sr1 (s.regs.sr1 &&& 0xD3#8), .regRd .sr3 (s.regs.sr3 &&& 0x07#8)] s t ∧
    t.eng = .epiErr ∧ t.call = s.call ∧ t.env = s.env ∧ SameMemory s t ∧ SameRest s t

/-- `M_TX` short of the last byte (41_master_branch.md R134): the byte at `base + cursor` goes to `DR` and the cursor
grows by one; no Stop, no callback, the role stays. -/
def Obligations.MTxContinues : Prop :=
  ∀ (s : State) (base n : Nat), s.ctx.masterBuffer = some base → s.ctx.masterLength = some n →
    s.ctx.cursor < n → s.hasAddr (base + s.ctx.cursor) = true →
    (s.ctx.cursor + 1) % 2 ^ s.cfg.lenBits ≠ n →
    ∃ (t : State) (v : Byte), exec .mTx s = .next t ∧ v = s.byteAt (base + s.ctx.cursor) ∧
      t.regs = { s.regs with dr := v, sr1 := sr1AfterDr s } ∧
      t.ctx = { s.ctx with cursor := (s.ctx.cursor + 1) % 2 ^ s.cfg.lenBits } ∧
      Appends (.arm .mTx) [.memRd (base + s.ctx.cursor) v, .regWr .dr v] s t ∧
      t.seq = { s.seq with sbArmed := false } ∧ t.env = envAfterDr s v ∧ t.eng = .epiErr ∧ t.call = s.call ∧
      SameMemory s t ∧ SameRest s t

/-- `M_TX` with the last byte (41_master_branch.md R134 to R136): the byte, then the Stop request, then the callback
with the buffer and the length, and the role returns to Slave, all in the same entry. -/
def Obligations.MTxCompletes : Prop :=
  ∀ (s : State) (base n : Nat), s.ctx.masterBuffer = some base → s.ctx.masterLength = some n →
    s.ctx.cursor + 1 = n → n < 2 ^ s.cfg.lenBits → s.hasAddr (base + s.ctx.cursor) = true →
    ∃ (t : State) (v c : Byte), exec .mTx s = .next t ∧ v = s.byteAt (base + s.ctx.cursor) ∧
      c = putBit (s.regs.cr2 &&& 0x07#8) 1 true ∧
      t.regs = { s.regs with
        dr := v, cr2 := c, sr1 := if s.seq.stopArmed then putBit (sr1AfterDr s) 4 false else sr1AfterDr s } ∧
      t.ctx = { s.ctx with cursor := n, role := .slave } ∧
      Appends (.arm .mTx)
        [.memRd (base + s.ctx.cursor) v, .regWr .dr v, .regWr .cr2 c, .stopReq, .cbMasterWriteDone base n] s t ∧
      t.seq = { s.seq with sbArmed := false, stopArmed := false } ∧ t.env = envAfterDr s v ∧ t.eng = .epiErr ∧
      t.call = s.call ∧ SameMemory s t ∧ SameRest s t

/-- `M_TX` with the cursor at the length, as for a write of length 0 (41_master_branch.md R135): no byte; the Stop
request, the callback and the role. With the cursor beyond the length: nothing. That the `CR2` write completes an armed
`STOPF` clear is read from 10_state.md R41 (log 20). -/
def Obligations.MTxNoByte : Prop :=
  ∀ (s : State) (base n : Nat), s.ctx.masterBuffer = some base → s.ctx.masterLength = some n →
    (s.ctx.cursor = n →
      ∃ (t : State) (c : Byte), exec .mTx s = .next t ∧ c = putBit (s.regs.cr2 &&& 0x07#8) 1 true ∧
        t.regs = { s.regs with cr2 := c, sr1 := sr1AfterCr2 s } ∧ t.ctx = { s.ctx with role := .slave } ∧
        Appends (.arm .mTx) [.regWr .cr2 c, .stopReq, .cbMasterWriteDone base n] s t ∧
        t.seq = { s.seq with stopArmed := false } ∧ t.env = s.env ∧ t.eng = .epiErr ∧ t.call = s.call ∧
        SameMemory s t ∧ SameRest s t) ∧
    (n < s.ctx.cursor → exec .mTx s = .next { s with eng := .epiErr })

/-- The arms that do nothing but let the epilogue come, and `M_TX_UNEXPECTED`, which only reports itself
(41_master_branch.md R137, R138, R143, 42_slave_branch.md R167). -/
def Obligations.IdleArms : Prop :=
  ∀ s : State,
    exec .mTxIdle s = .next { s with eng := .epiErr } ∧
    exec .mRxIdle s = .next { s with eng := .epiErr } ∧
    exec .sIdle s = .next { s with eng := .epiErr } ∧
    exec .mTxUnexpected s = .next { s with
      eng := .epiErr, trace := s.trace ++ [⟨.arm .mTxUnexpected, .diag .mTxUnexpected⟩] }

/-- `M_RX` short of the last byte (41_master_branch.md R139): the byte delivered is stored at `base + cursor`, `RXNE`
is cleared, the cursor grows by one. -/
def Obligations.MRxContinues : Prop :=
  ∀ (s : State) (base n : Nat), s.ctx.masterBuffer = some base → s.ctx.masterLength = some n →
    s.ctx.cursor < n → s.ctx.cursor ≠ (n + (2 ^ s.cfg.lenBits - 1)) % 2 ^ s.cfg.lenBits →
    s.hasAddr (base + s.ctx.cursor) = true →
    ∃ t : State, exec .mRx s = .next t ∧
      t.byteAt (base + s.ctx.cursor) = s.regs.delivered ∧ SameMemoryBut (base + s.ctx.cursor) s t ∧
      t.regs = { s.regs with sr1 := putBit s.regs.sr1 6 false } ∧
      t.ctx = { s.ctx with cursor := (s.ctx.cursor + 1) % 2 ^ s.cfg.lenBits } ∧
      Appends (.arm .mRx) [.regRd .dr s.regs.delivered, .memWr (base + s.ctx.cursor) s.regs.delivered] s t ∧
      t.seq = s.seq ∧ t.env = s.env ∧ t.eng = .epiErr ∧ t.call = s.call ∧ SameRest s t

/-- `M_RX` with the last byte (41_master_branch.md R139, R140): the byte is stored, `ACK` is cleared, Stop is
requested, the callback is made, the role returns to Slave and the cursor reaches the length. -/
def Obligations.MRxCompletes : Prop :=
  ∀ (s : State) (base n : Nat), s.ctx.masterBuffer = some base → s.ctx.masterLength = some n →
    s.ctx.cursor + 1 = n → n < 2 ^ s.cfg.lenBits → s.hasAddr (base + s.ctx.cursor) = true →
    ∃ (t : State) (c c' : Byte), exec .mRx s = .next t ∧
      c = putBit (s.regs.cr2 &&& 0x07#8) 2 false ∧ c' = putBit c 1 true ∧
      t.byteAt (base + s.ctx.cursor) = s.regs.delivered ∧ SameMemoryBut (base + s.ctx.cursor) s t ∧
      t.regs = { s.regs with
        cr2 := c'
        sr1 := if s.seq.stopArmed then putBit (putBit s.regs.sr1 6 false) 4 false
               else putBit s.regs.sr1 6 false } ∧
      t.ctx = { s.ctx with cursor := n, role := .slave } ∧
      Appends (.arm .mRx)
        [.regRd .dr s.regs.delivered, .memWr (base + s.ctx.cursor) s.regs.delivered, .regWr .cr2 c, .ackSet false,
          .regWr .cr2 c', .stopReq, .cbMasterReadDone base n] s t ∧
      t.seq = { s.seq with stopArmed := false } ∧ t.env = s.env ∧ t.eng = .epiErr ∧ t.call = s.call ∧ SameRest s t

/-- `M_RX` with the cursor at or beyond the length stores nothing (41_master_branch.md R141, R142). The defensive exit,
as in a read of length 0: `ACK` set, the role Slave, no Stop, no callback, the cursor grown by one. Only a length of 0
with the cursor at the largest value, `length - 1` modulo `2^LEN_BITS`, completes instead, as R139 says. That the `CR2`
writes complete an armed `STOPF` clear is read from 10_state.md R41 (log 20). -/
def Obligations.MRxStoresNothing : Prop :=
  ∀ (s : State) (n : Nat), s.ctx.masterLength = some n → n ≤ s.ctx.cursor →
    (s.ctx.cursor ≠ (n + (2 ^ s.cfg.lenBits - 1)) % 2 ^ s.cfg.lenBits →
      ∃ (t : State) (c : Byte), exec .mRx s = .next t ∧ c = putBit (s.regs.cr2 &&& 0x07#8) 2 true ∧
        t.regs = { s.regs with
          cr2 := c
          sr1 := if s.seq.stopArmed then putBit (putBit s.regs.sr1 6 false) 4 false
                 else putBit s.regs.sr1 6 false } ∧
        t.ctx = { s.ctx with cursor := (s.ctx.cursor + 1) % 2 ^ s.cfg.lenBits, role := .slave } ∧
        Appends (.arm .mRx) [.regRd .dr s.regs.delivered, .regWr .cr2 c, .ackSet true] s t ∧
        t.seq = { s.seq with stopArmed := false } ∧ t.env = s.env ∧ t.eng = .epiErr ∧ t.call = s.call ∧
        SameMemory s t ∧ SameRest s t) ∧
    (∀ base, s.ctx.masterBuffer = some base →
      s.ctx.cursor = (n + (2 ^ s.cfg.lenBits - 1)) % 2 ^ s.cfg.lenBits →
      ∃ (t : State) (c c' : Byte), exec .mRx s = .next t ∧
        c = putBit (s.regs.cr2 &&& 0x07#8) 2 false ∧ c' = putBit c 1 true ∧
        t.regs = { s.regs with
          cr2 := c'
          sr1 := if s.seq.stopArmed then putBit (putBit s.regs.sr1 6 false) 4 false
                 else putBit s.regs.sr1 6 false } ∧
        t.ctx = { s.ctx with cursor := (s.ctx.cursor + 1) % 2 ^ s.cfg.lenBits, role := .slave } ∧
        Appends (.arm .mRx)
          [.regRd .dr s.regs.delivered, .regWr .cr2 c, .ackSet false, .regWr .cr2 c', .stopReq,
            .cbMasterReadDone base n] s t ∧
        t.seq = { s.seq with stopArmed := false } ∧ t.env = s.env ∧ t.eng = .epiErr ∧ t.call = s.call ∧
        SameMemory s t ∧ SameRest s t)

/-! ### Slave branch -/

/-- `S_ADDR` (42_slave_branch.md R161): `ADDR` is clear after it, `ACK` is set, the cursor is 0. Its `SR1` read and
`CR2` write together are also a `STOPF` clear (10_state.md R41). -/
def Obligations.SAddrResult : Prop :=
  ∀ s : State, ∃ (t : State) (c : Byte), exec .sAddr s = .next t ∧ c = putBit (s.regs.cr2 &&& 0x07#8) 2 true ∧
    t.regs = { s.regs with cr2 := c, sr1 := putBit (putBit s.regs.sr1 1 false) 4 false } ∧
    t.seq = ⟨(latchesAfterSr1 s).sbArmed, false, false⟩ ∧
    t.ctx = { s.ctx with cursor := 0, scratch := some (s.regs.sr3 &&& 0x07#8) } ∧
    Appends (.arm .sAddr)
      [.regRd .sr1 (s.regs.sr1 &&& 0xD3#8), .regRd .sr3 (s.regs.sr3 &&& 0x07#8), .regWr .cr2 c, .ackSet true] s t ∧
    t.eng = .epiErr ∧ t.call = s.call ∧ t.env = s.env ∧ SameMemory s t ∧ SameRest s t

/-- `S_RX` below the capacity (42_slave_branch.md R162): the byte is stored and the cursor grows; the callback comes
with the byte that fills the buffer, and only then. `ACK` is left as it is. -/
def Obligations.SRxStores : Prop :=
  ∀ (s : State) (base : Nat), s.ctx.slaveBuffer = some base → s.ctx.cursor < s.ctx.slaveLength →
    s.ctx.slaveLength < 2 ^ s.cfg.lenBits → s.hasAddr (base + s.ctx.cursor) = true →
    ∃ t : State, exec .sRx s = .next t ∧
      t.byteAt (base + s.ctx.cursor) = s.regs.delivered ∧ SameMemoryBut (base + s.ctx.cursor) s t ∧
      t.regs = { s.regs with sr1 := putBit s.regs.sr1 6 false } ∧
      t.ctx = { s.ctx with cursor := s.ctx.cursor + 1 } ∧
      Appends (.arm .sRx)
        ([.regRd .dr s.regs.delivered, .memWr (base + s.ctx.cursor) s.regs.delivered] ++
          if s.ctx.cursor + 1 = s.ctx.slaveLength then [.cbSlaveReceiveDone base s.ctx.slaveLength] else []) s t ∧
      t.seq = s.seq ∧ t.env = s.env ∧ t.eng = .epiErr ∧ t.call = s.call ∧ SameRest s t

/-- `S_RX` at or beyond the capacity (42_slave_branch.md R163): the byte is read, which clears `RXNE`, and discarded;
nothing is stored, the cursor stays, `ACK` is left as it is, no callback. -/
def Obligations.SRxDiscards : Prop :=
  ∀ s : State, s.ctx.slaveLength ≤ s.ctx.cursor →
    ∃ t : State, exec .sRx s = .next t ∧
      t.regs = { s.regs with sr1 := putBit s.regs.sr1 6 false } ∧ t.ctx = s.ctx ∧
      Appends (.arm .sRx) [.regRd .dr s.regs.delivered] s t ∧
      t.seq = s.seq ∧ t.env = s.env ∧ t.eng = .epiErr ∧ t.call = s.call ∧ SameMemory s t ∧ SameRest s t

/-- `S_TX` below the capacity (42_slave_branch.md R165): the byte at `base + cursor` goes to `DR`, the cursor grows,
and the callback comes exactly when the cursor reaches the capacity. `SB` and its latch are left (R168, log 14). -/
def Obligations.STxSends : Prop :=
  ∀ (s : State) (base : Nat), s.ctx.slaveBuffer = some base → s.ctx.cursor < s.ctx.slaveLength →
    s.ctx.slaveLength < 2 ^ s.cfg.lenBits → s.hasAddr (base + s.ctx.cursor) = true →
    ∃ (t : State) (v : Byte), exec .sTx s = .next t ∧ v = s.byteAt (base + s.ctx.cursor) ∧
      t.regs = { s.regs with dr := v, sr1 := putBit s.regs.sr1 7 false } ∧
      t.ctx = { s.ctx with cursor := s.ctx.cursor + 1 } ∧
      Appends (.arm .sTx)
        ([.memRd (base + s.ctx.cursor) v, .regWr .dr v] ++
          if s.ctx.cursor + 1 = s.ctx.slaveLength then [.cbSlaveTransmitDone base s.ctx.slaveLength] else []) s t ∧
      t.seq = s.seq ∧ t.env = s.env ∧ t.eng = .epiErr ∧ t.call = s.call ∧
      SameMemory s t ∧ SameRest s t

/-- `S_TX` with the buffer exhausted (42_slave_branch.md R165, R166): the filler `0x00` goes to `DR`; no callback, no
increment. `SB` and its latch are left (R168, log 14). -/
def Obligations.STxFills : Prop :=
  ∀ s : State, s.ctx.slaveLength ≤ s.ctx.cursor →
    ∃ t : State, exec .sTx s = .next t ∧
      t.regs = { s.regs with dr := 0x00#8, sr1 := putBit s.regs.sr1 7 false } ∧ t.ctx = s.ctx ∧
      Appends (.arm .sTx) [.regWr .dr 0x00#8] s t ∧
      t.seq = s.seq ∧ t.env = s.env ∧ t.eng = .epiErr ∧ t.call = s.call ∧
      SameMemory s t ∧ SameRest s t

/-! ### Where the buffer arms fault or stop -/

/-- An element beyond the address space is `Fault(AddressWrap)`, with no element read or written (20_memory.md R69). That
the fault is recorded in a next state, and what registers and memory hold in it, is the model's reading (log 8). -/
def Obligations.AddressWrapFaults : Prop :=
  ∀ (s : State) (base : Nat), s.fault = none → 2 ^ s.cfg.addrBits ≤ base + s.ctx.cursor →
    (∀ n, s.ctx.masterBuffer = some base → s.ctx.masterLength = some n → s.ctx.cursor < n →
      (∃ t, exec .mTx s = .next t ∧ t.fault = some .addressWrap ∧ t.mem = s.mem ∧ t.regs = s.regs) ∧
      (∃ t, exec .mRx s = .next t ∧ t.fault = some .addressWrap ∧ t.mem = s.mem)) ∧
    (s.ctx.slaveBuffer = some base → s.ctx.cursor < s.ctx.slaveLength →
      (∃ t, exec .sTx s = .next t ∧ t.fault = some .addressWrap ∧ t.mem = s.mem ∧ t.regs = s.regs) ∧
      (∃ t, exec .sRx s = .next t ∧ t.fault = some .addressWrap ∧ t.mem = s.mem))

/-- An element inside the address space but outside the launch memory leaves the engine stuck (20_memory.md R68,
60_exceptions.md R217). -/
def Obligations.OutsideLaunchStuck : Prop :=
  ∀ (s : State) (base : Nat), base + s.ctx.cursor < 2 ^ s.cfg.addrBits →
    (∀ r ∈ s.cfg.launch, base + s.ctx.cursor < r.base ∨ r.base + r.size ≤ base + s.ctx.cursor) →
    (∀ n, s.ctx.masterBuffer = some base → s.ctx.masterLength = some n → s.ctx.cursor < n →
      exec .mTx s = .fault .stuck ∧ exec .mRx s = .fault .stuck) ∧
    (s.ctx.slaveBuffer = some base → s.ctx.cursor < s.ctx.slaveLength →
      exec .sTx s = .fault .stuck ∧ exec .sRx s = .fault .stuck)

/-! ### Epilogue -/

/-- `EPI_ERR` (43_epilogue.md R182 to R184): exactly the flags of the mask are cleared, each by its own `SR2` write in
ascending order; Stop is requested only in Master role; one `CbError` with the raw mask follows; role, cursor and
`ACK` are left. The Stop request's `CR2` write completes an armed `STOPF` clear (10_state.md R41, log 20). -/
def Obligations.EpiErrResult : Prop :=
  ∀ (s : State) (e : Nibble), ∃ (t : State) (c : Byte), exec (.epiErr e) s = .next t ∧
    c = putBit (s.regs.cr2 &&& 0x07#8) 1 true ∧
    (∀ k : ErrFlag, t.regs.err k = (s.regs.err k && !e.getLsbD k.index)) ∧
    t.regs = { s.regs with
      sr2 := t.regs.sr2
      cr2 := if s.ctx.role = .master then c else s.regs.cr2
      sr1 := if s.ctx.role = .master then sr1AfterCr2 s else s.regs.sr1 } ∧
    Appends .epiErr
      ((([ErrFlag.berr, .arlo, .af, .ovr].filter (fun k => e.getLsbD k.index)).map
          (fun k => Event.regWr .sr2 (~~~(1#8 <<< k.index) &&& 0x0F#8))) ++
        (if s.ctx.role = .master then [.regWr .cr2 c, .stopReq] else []) ++ [.cbError e]) s t ∧
    t.seq = (if s.ctx.role = .master then { s.seq with stopArmed := false } else s.seq) ∧
    t.ctx = s.ctx ∧ t.env = s.env ∧ t.eng = .epiStop ∧ t.call = s.call ∧ SameMemory s t ∧ SameRest s t

/-- Phase `EpiErr` as a step (43_epilogue.md R181): `SR2` is read; after the step no error flag is set, whichever was;
with none set, nothing but the read and the phase happens. -/
def Obligations.EpiErrPhase : Prop :=
  ∀ (s : State) (ts : List Turn), s.fault = none → s.turns = .engine :: ts → s.eng = .epiErr →
    ∃ t : State, step s = .next t ∧ t.eng = .epiStop ∧ t.ctx = s.ctx ∧ (∀ k : ErrFlag, t.regs.err k = false) ∧
      (s.trace ++ [⟨.epiErr, .regRd .sr2 (s.regs.sr2 &&& 0x0F#8)⟩]) <+: t.trace ∧
      (s.regs.errMask = 0#4 →
        t = { s with
          turns := ts, eng := .epiStop
          trace := s.trace ++ [⟨.epiErr, .regRd .sr2 (s.regs.sr2 &&& 0x0F#8)⟩] }) ∧
      (s.regs.errMask ≠ 0#4 → t.trace.getLast? = some ⟨.epiErr, .cbError s.regs.errMask⟩)

/-- `EPI_STOP` (43_epilogue.md R185): `CR2` is read and written back, which clears an armed `STOPF`; no request event;
the context unchanged; the service step returns. -/
def Obligations.EpiStopResult : Prop :=
  ∀ s : State, ∃ t : State, exec .epiStop s = .next t ∧
    t.regs = { s.regs with cr2 := s.regs.cr2 &&& 0x07#8, sr1 := sr1AfterCr2 s } ∧
    Appends .epiStop [.regRd .cr2 (s.regs.cr2 &&& 0x07#8), .regWr .cr2 (s.regs.cr2 &&& 0x07#8)] s t ∧
    t.seq = { s.seq with stopArmed := false } ∧ t.ctx = s.ctx ∧ t.env = s.env ∧ t.eng = .idle ∧ t.call = s.call ∧
    SameMemory s t ∧ SameRest s t

/-- Phase `EpiStop` as a step (43_epilogue.md R185, 60_exceptions.md R222): `SR1` is read; `STOPF` is 0 after it;
`CR2` keeps its fields; no request event; the service step returns. -/
def Obligations.EpiStopPhase : Prop :=
  ∀ (s : State) (ts : List Turn), s.fault = none → s.turns = .engine :: ts → s.eng = .epiStop →
    ∃ t : State, step s = .next t ∧ t.eng = .idle ∧ t.regs.stopf = false ∧
      t.regs = { s.regs with sr1 := putBit s.regs.sr1 4 false, cr2 := t.regs.cr2 } ∧
      t.regs.cr2 &&& 0x07#8 = s.regs.cr2 &&& 0x07#8 ∧
      t.ctx = { s.ctx with scratch := some (s.regs.sr1 &&& 0xD3#8) } ∧
      Appends .epiStop
        (.regRd .sr1 (s.regs.sr1 &&& 0xD3#8) ::
          if s.regs.stopf then [.regRd .cr2 (s.regs.cr2 &&& 0x07#8), .regWr .cr2 (s.regs.cr2 &&& 0x07#8)]
          else []) s t

/-! ### The bus environment -/

/-- Every move of the environment completes, changes nothing but `SR1`, `SR2`, `SR3`, `DR`, `START` and `STOP`,
appends one `Wire` event, and neither reads nor writes the context (44_bus_environment.md R190, R201, 10_state.md
R30). -/
def Obligations.EnvironmentFrame : Prop :=
  ∀ (m : EnvWord) (s : State), ∃ t : State, exec (decodeEnv m) s = .next t ∧
    (∃ w, t.trace = s.trace ++ [⟨.env, .wire w⟩]) ∧
    t.regs = { s.regs with
      sr1 := t.regs.sr1, sr2 := t.regs.sr2, sr3 := t.regs.sr3, cr2 := t.regs.cr2, dr := t.regs.dr
      delivered := t.regs.delivered } ∧
    (∀ k, 2 ≤ k → t.regs.cr2.getLsbD k = s.regs.cr2.getLsbD k) ∧
    t.ctx = s.ctx ∧ t.seq = s.seq ∧ t.eng = s.eng ∧ t.call = s.call ∧ SameMemory s t ∧ SameRest s t ∧
    (∀ x : Context, exec (decodeEnv m) { s with ctx := x } = .next { t with ctx := x })

/-- `STARTDONE`, `STOPDONE f`, `BUSSTART` and `PEERSTOP` (44_bus_environment.md R191 to R194, R199): the register
effects and the `Wire` event. -/
def Obligations.BusConditionMoves : Prop :=
  ∀ s : State,
    (∃ t, exec .envStartdone s = .next t ∧
      t.regs = { s.regs with
        cr2 := putBit s.regs.cr2 0 false, sr1 := putBit s.regs.sr1 0 true
        sr3 := putBit (putBit s.regs.sr3 0 true) 1 true } ∧
      Appends .env [.wire (if s.regs.msl then .repStart else .start)] s t) ∧
    (∀ f : Bool, ∃ t, exec (.envStopdone f) s = .next t ∧
      t.regs = { s.regs with
        cr2 := putBit s.regs.cr2 1 false, sr1 := if f then putBit s.regs.sr1 4 true else s.regs.sr1
        sr3 := putBit (putBit (putBit s.regs.sr3 0 false) 1 false) 2 false } ∧
      Appends .env [.wire .stop] s t) ∧
    (∃ t, exec .envBusstart s = .next t ∧ t.regs = { s.regs with sr3 := putBit s.regs.sr3 1 true } ∧
      Appends .env [.wire .extStart] s t) ∧
    (∃ t, exec .envPeerstop s = .next t ∧
      t.regs = { s.regs with
        sr1 := putBit s.regs.sr1 4 true, sr3 := putBit (putBit s.regs.sr3 1 false) 2 false } ∧
      Appends .env [.wire .extStop] s t)

/-- `ADDRACK`, `ADDRNACK`, `TXACK` and `TXNACK` (44_bus_environment.md R191, R196). `D` is bit 0 of the address byte
last written after a Start. -/
def Obligations.AcknowledgeMoves : Prop :=
  ∀ s : State,
    (∃ t, exec .envAddrack s = .next t ∧
      t.regs = { s.regs with
        sr1 := if s.env.addrByte.getLsbD 0 then putBit s.regs.sr1 1 true
               else putBit (putBit s.regs.sr1 1 true) 7 true
        sr3 := putBit s.regs.sr3 2 (!s.env.addrByte.getLsbD 0) } ∧
      Appends .env [.wire .addrAck] s t) ∧
    (∃ t, exec .envAddrnack s = .next t ∧ t.regs = { s.regs with sr2 := putBit s.regs.sr2 2 true } ∧
      Appends .env [.wire .addrNack] s t) ∧
    (∃ t, exec .envTxack s = .next t ∧ t.regs = { s.regs with sr1 := putBit s.regs.sr1 7 true } ∧
      Appends .env [.wire (.byte s.regs.dr true)] s t) ∧
    (∃ t, exec .envTxnack s = .next t ∧ t.regs = { s.regs with sr2 := putBit s.regs.sr2 2 true } ∧
      Appends .env [.wire (.byte s.regs.dr false)] s t)

/-- `RXBYTE b` (44_bus_environment.md R195, R204): the byte is in `DR`, the next read of `DR` returns it, `RXNE` is
set, and a byte still unread is lost and `OVR` set; the acknowledge on the wire is `CR2.ACK` as it stands. After a byte
that was not acknowledged no further `RXBYTE` to a master conforms, whatever other moves come, until an address is
acknowledged again (70_reset_and_hazards.md R258); how the guards are read is log 6. -/
def Obligations.ReceiveMove : Prop :=
  ∀ (s : State) (b : Byte), ∃ t, exec (.envRxbyte b) s = .next t ∧
    t.regs.dr = b ∧ t.regVal .dr = b ∧ t.regs.rxne = true ∧
    (s.regs.rxne = false → t.regs = { s.regs with dr := b, delivered := b, sr1 := putBit s.regs.sr1 6 true }) ∧
    (s.regs.rxne = true → t.regs = { s.regs with dr := b, delivered := b, sr2 := putBit s.regs.sr2 3 true }) ∧
    Appends .env [.wire (.byte b (s.regs.cr2.getLsbD 2))] s t ∧ t.env.rxAck = s.regs.cr2.getLsbD 2 ∧
    (s.env.rxAck = false → s.env.slaveMatch ≠ some false → envGuard (.rxbyte b) s = false) ∧
    (∀ i u, exec i s = .next u → s.env.rxAck = false → i ≠ .envAddrack → (∀ c, i ≠ .envRxbyte c) →
      u.env.rxAck = false)

/-- `MATCH d` and `ERR k` (44_bus_environment.md R191, R194, R198): arbitration lost also clears `MSL`, and no error
changes the role. A conforming `MATCH` answers an address byte equal to `OAR[7:1]` (10_state.md R35). -/
def Obligations.MatchAndErrorMoves : Prop :=
  ∀ s : State,
    (∀ d : Bool, ∃ t, exec (.envMatch d) s = .next t ∧
      t.regs = { s.regs with
        sr1 := if d then putBit (putBit s.regs.sr1 1 true) 7 true else putBit s.regs.sr1 1 true
        sr3 := putBit s.regs.sr3 2 d } ∧
      Appends .env [.wire (.addrMatch d)] s t) ∧
    (∀ d, envGuard (.matched d) s = true → s.env.called = some (s.regs.oar.extractLsb' 1 7)) ∧
    (∀ k : ErrFlag, ∃ t, exec (.envErr k) s = .next t ∧ t.regs.err k = true ∧
      (∀ j, j ≠ k → t.regs.err j = s.regs.err j) ∧
      t.regs = { s.regs with
        sr2 := t.regs.sr2, sr3 := if k = .arlo then putBit s.regs.sr3 0 false else s.regs.sr3 } ∧
      t.ctx.role = s.ctx.role ∧ Appends .env [.wire (.err k)] s t)

/-! ### Rules of the whole machine -/

/-- Who writes the role (10_state.md R21): `CFG_SLAVE` and the master data arms to Slave, an arming command's first
phase to Master, and nothing else. -/
def Obligations.RoleWriters : Prop :=
  ∀ (i : Instr) (s t : State), exec i s = .next t → t.ctx.role ≠ s.ctx.role →
    (t.ctx.role = .slave ∧ ((∃ a b n, i = .cfgSlave a b n) ∨ i = .mTx ∨ i = .mRx)) ∨
    (t.ctx.role = .master ∧ s.call = .ready ∧ ∃ p b n, i = .armWrite p b n ∨ i = .armRead p b n)

/-- Who writes the configuration registers (10_state.md R32, R34, R35, R40): `CR1`, `ITR`, `FREQR`, `CCR` and `TRISER`
only `INIT`, `OAR` only `INIT` and `CFG_SLAVE`; so no service step is pending before `INIT` (70_reset_and_hazards.md
R241). -/
def Obligations.ConfigurationWriters : Prop :=
  (∀ (i : Instr) (s t : State), exec i s = .next t →
    (i ≠ .init →
      t.regs.cr1 = s.regs.cr1 ∧ t.regs.itr = s.regs.itr ∧ t.regs.freqr = s.regs.freqr ∧ t.regs.ccr = s.regs.ccr ∧
      t.regs.triser = s.regs.triser) ∧
    (i ≠ .init → (∀ a b n, i ≠ .cfgSlave a b n) → t.regs.oar = s.regs.oar)) ∧
  (∀ s : State, s.regs.pe = false → s.regs.pending = false)

/-- Who writes the other context fields (10_state.md R22 to R26): direction, peer, master buffer and length only the
arming commands; the slave buffer and the capacity only `CFG_SLAVE`; the cursor only the arming commands and the six
arms that reset or advance it. -/
def Obligations.ContextWriters : Prop :=
  ∀ (i : Instr) (s t : State), exec i s = .next t →
    (t.ctx.direction ≠ s.ctx.direction ∨ t.ctx.peerAddress ≠ s.ctx.peerAddress ∨
        t.ctx.masterBuffer ≠ s.ctx.masterBuffer ∨ t.ctx.masterLength ≠ s.ctx.masterLength →
      ∃ p b n, i = .armWrite p b n ∨ i = .armRead p b n) ∧
    (t.ctx.slaveBuffer ≠ s.ctx.slaveBuffer ∨ t.ctx.slaveLength ≠ s.ctx.slaveLength →
      ∃ a b n, i = .cfgSlave a b n) ∧
    (t.ctx.cursor ≠ s.ctx.cursor →
      (∃ p b n, i = .armWrite p b n ∨ i = .armRead p b n) ∨
        i = .mAddr ∨ i = .mTx ∨ i = .mRx ∨ i = .sAddr ∨ i = .sRx ∨ i = .sTx)

/-- The only bytes an operation can change are the element at `base + cursor`, with `cursor` below the length, of the
buffer of the role whose receive arm runs (20_memory.md R68, 42_slave_branch.md R164). -/
def Obligations.MemoryWriters : Prop :=
  ∀ (i : Instr) (s t : State) (a : Nat), exec i s = .next t → t.byteAt a ≠ s.byteAt a →
    (i = .mRx ∧ ∃ base n, s.ctx.masterBuffer = some base ∧ s.ctx.masterLength = some n ∧ s.ctx.cursor < n ∧
      a = base + s.ctx.cursor) ∨
    (i = .sRx ∧ ∃ base, s.ctx.slaveBuffer = some base ∧ s.ctx.cursor < s.ctx.slaveLength ∧
      a = base + s.ctx.cursor)

/-- The trace only grows: what a step has recorded stays, in its order (10_state.md R45, 20_memory.md R66). -/
def Obligations.TraceGrows : Prop :=
  ∀ s t : State, step s = .next t → s.trace <+: t.trace

/-- No step changes a parameter (00_scope.md R10). -/
def Obligations.ParametersFixed : Prop :=
  ∀ s t : State, step s = .next t → t.cfg = s.cfg

/-- Only a move of the environment sets an event flag or an error flag; the block only clears them (10_state.md R37,
R38, R41, R42). -/
def Obligations.OnlyEnvironmentSetsFlags : Prop :=
  ∀ (i : Instr) (s t : State), exec i s = .next t → (∀ m, i ≠ decodeEnv m) →
    (t.regs.sb = true → s.regs.sb = true) ∧ (t.regs.addr = true → s.regs.addr = true) ∧
    (t.regs.stopf = true → s.regs.stopf = true) ∧ (t.regs.rxne = true → s.regs.rxne = true) ∧
    (t.regs.txe = true → s.regs.txe = true) ∧ (∀ k, t.regs.err k = true → s.regs.err k = true) ∧
    t.regs.sr3 = s.regs.sr3

/-- `SB` in Slave role (42_slave_branch.md R168, 70_reset_and_hazards.md R255): no step clears it, and with service
enabled it stays pending, so the service steps do not end; the engine's steps leave the role. That the `DR` write of
`S_TX` is no address write, so completes no `SB` clear, is read from 92_eei_decisions.md D11 and R168 (log 14). -/
def Obligations.SlaveRoleKeepsSb : Prop :=
  ∀ s t : State, step s = .next t → s.ctx.role = .slave → s.regs.sb = true →
    t.regs.sb = true ∧ (s.regs.pe = true → s.regs.itevten = true → t.regs.pending = true) ∧
    (s.eng ≠ .idle → t.ctx.role = .slave)

/-! ### Invariants -/

/-- The caller's memory keeps its canonical form, the model's own form of it (log 5). -/
def Obligations.MemoryCanonicalKept : Prop :=
  ∀ s t : State, s.mem.wf → step s = .next t → t.mem.wf

/-- In Master role the context is written and the cursor has not passed the length, and the slave buffer is written
wherever it can be used: every step keeps it (10_state.md R29, 41_master_branch.md R135, R142). -/
def Obligations.ContextInvariantKept : Prop :=
  ∀ s t : State, MasterArmed s → SlaveConfigured s → step s = .next t → MasterArmed t ∧ SlaveConfigured t

/-- Under that invariant no step reads an unwritten field (41_master_branch.md R131: the reset state rules it out). -/
def Obligations.NoUnwrittenRead : Prop :=
  ∀ s t : State, MasterArmed s → SlaveConfigured s → step s = .next t → t.fault ≠ some .unwrittenRead

/-- A clear latch is set only while its flag is: every step keeps it (10_state.md R41). -/
def Obligations.LatchInvariantKept : Prop :=
  ∀ s t : State, LatchesUnderFlags s → step s = .next t → LatchesUnderFlags t

/-- The bits no register implements stay 0 (10_state.md R32 to R40). -/
def Obligations.ReservedBitsKept : Prop :=
  ∀ s t : State, ReservedZero s.regs → step s = .next t → ReservedZero t.regs

/-- The context's values stay inside their fields' widths (10_state.md R24 to R27, 30_encoding.md R91). -/
def Obligations.WidthsKept : Prop :=
  ∀ s t : State, WidthsFit s → step s = .next t → WidthsFit t

/-- The reset state of every configuration meets all these invariants; the form of memory is the model's own (log 5). -/
def Obligations.ResetMeetsInvariants : Prop :=
  ∀ c : Config, let s := State.resetWith c
    s.mem.wf ∧ MasterArmed s ∧ SlaveConfigured s ∧ LatchesUnderFlags s ∧ ReservedZero s.regs ∧ WidthsFit s

/-- Service steps of different copies of the block do not interleave (60_exceptions.md R233). In states where a copy has
stopped inside a service step, of which the spec says nothing, this holds by the model's choice that the stopped copy
keeps the processor (log 24). -/
def Obligations.OneServiceAtATime : Prop :=
  ∀ (buses buses' : List State) (i : Nat), OneInService buses → stepBus buses i = some (.next buses') →
    OneInService buses' ∧ ∀ j, j ≠ i → buses'[j]? = buses[j]?
end

