-- ==== Sys2Proof/Laws/State.lean ====
section
/-!
SUPPORT. The simp set of the state: for each update, one lemma for each field it leaves alone and one for each field
it sets. Later proofs cite these and unfold no record update.
-/

namespace Sys2Proof.Machine

/-! ### Fields an update leaves alone -/

@[simp] theorem State.emit_cfg (s : State) (t : Tag) (e : Event) : (s.emit t e).cfg = s.cfg := rfl
@[simp] theorem State.emit_ctx (s : State) (t : Tag) (e : Event) : (s.emit t e).ctx = s.ctx := rfl
@[simp] theorem State.emit_regs (s : State) (t : Tag) (e : Event) : (s.emit t e).regs = s.regs := rfl
@[simp] theorem State.emit_seq (s : State) (t : Tag) (e : Event) : (s.emit t e).seq = s.seq := rfl
@[simp] theorem State.emit_eng (s : State) (t : Tag) (e : Event) : (s.emit t e).eng = s.eng := rfl
@[simp] theorem State.emit_call (s : State) (t : Tag) (e : Event) : (s.emit t e).call = s.call := rfl
@[simp] theorem State.emit_env (s : State) (t : Tag) (e : Event) : (s.emit t e).env = s.env := rfl
@[simp] theorem State.emit_mem (s : State) (t : Tag) (e : Event) : (s.emit t e).mem = s.mem := rfl
@[simp] theorem State.emit_turns (s : State) (t : Tag) (e : Event) : (s.emit t e).turns = s.turns := rfl
@[simp] theorem State.emit_fault (s : State) (t : Tag) (e : Event) : (s.emit t e).fault = s.fault := rfl
@[simp] theorem State.emit_refusals (s : State) (t : Tag) (e : Event) : (s.emit t e).refusals = s.refusals := rfl

@[simp] theorem State.setRole_cfg (s : State) (r : Role) : (s.setRole r).cfg = s.cfg := rfl
@[simp] theorem State.setRole_regs (s : State) (r : Role) : (s.setRole r).regs = s.regs := rfl
@[simp] theorem State.setRole_seq (s : State) (r : Role) : (s.setRole r).seq = s.seq := rfl
@[simp] theorem State.setRole_eng (s : State) (r : Role) : (s.setRole r).eng = s.eng := rfl
@[simp] theorem State.setRole_call (s : State) (r : Role) : (s.setRole r).call = s.call := rfl
@[simp] theorem State.setRole_env (s : State) (r : Role) : (s.setRole r).env = s.env := rfl
@[simp] theorem State.setRole_mem (s : State) (r : Role) : (s.setRole r).mem = s.mem := rfl
@[simp] theorem State.setRole_turns (s : State) (r : Role) : (s.setRole r).turns = s.turns := rfl
@[simp] theorem State.setRole_trace (s : State) (r : Role) : (s.setRole r).trace = s.trace := rfl
@[simp] theorem State.setRole_fault (s : State) (r : Role) : (s.setRole r).fault = s.fault := rfl
@[simp] theorem State.setRole_refusals (s : State) (r : Role) : (s.setRole r).refusals = s.refusals := rfl

@[simp] theorem State.setCursor_cfg (s : State) (v : Nat) : (s.setCursor v).cfg = s.cfg := rfl
@[simp] theorem State.setCursor_regs (s : State) (v : Nat) : (s.setCursor v).regs = s.regs := rfl
@[simp] theorem State.setCursor_seq (s : State) (v : Nat) : (s.setCursor v).seq = s.seq := rfl
@[simp] theorem State.setCursor_eng (s : State) (v : Nat) : (s.setCursor v).eng = s.eng := rfl
@[simp] theorem State.setCursor_call (s : State) (v : Nat) : (s.setCursor v).call = s.call := rfl
@[simp] theorem State.setCursor_env (s : State) (v : Nat) : (s.setCursor v).env = s.env := rfl
@[simp] theorem State.setCursor_mem (s : State) (v : Nat) : (s.setCursor v).mem = s.mem := rfl
@[simp] theorem State.setCursor_turns (s : State) (v : Nat) : (s.setCursor v).turns = s.turns := rfl
@[simp] theorem State.setCursor_trace (s : State) (v : Nat) : (s.setCursor v).trace = s.trace := rfl
@[simp] theorem State.setCursor_fault (s : State) (v : Nat) : (s.setCursor v).fault = s.fault := rfl
@[simp] theorem State.setCursor_refusals (s : State) (v : Nat) : (s.setCursor v).refusals = s.refusals := rfl

@[simp] theorem State.incCursor_cfg (s : State) : s.incCursor.cfg = s.cfg := rfl
@[simp] theorem State.incCursor_regs (s : State) : s.incCursor.regs = s.regs := rfl
@[simp] theorem State.incCursor_seq (s : State) : s.incCursor.seq = s.seq := rfl
@[simp] theorem State.incCursor_eng (s : State) : s.incCursor.eng = s.eng := rfl
@[simp] theorem State.incCursor_call (s : State) : s.incCursor.call = s.call := rfl
@[simp] theorem State.incCursor_env (s : State) : s.incCursor.env = s.env := rfl
@[simp] theorem State.incCursor_mem (s : State) : s.incCursor.mem = s.mem := rfl
@[simp] theorem State.incCursor_turns (s : State) : s.incCursor.turns = s.turns := rfl
@[simp] theorem State.incCursor_trace (s : State) : s.incCursor.trace = s.trace := rfl
@[simp] theorem State.incCursor_fault (s : State) : s.incCursor.fault = s.fault := rfl
@[simp] theorem State.incCursor_refusals (s : State) : s.incCursor.refusals = s.refusals := rfl

@[simp] theorem State.setScratch_cfg (s : State) (v : Byte) : (s.setScratch v).cfg = s.cfg := rfl
@[simp] theorem State.setScratch_regs (s : State) (v : Byte) : (s.setScratch v).regs = s.regs := rfl
@[simp] theorem State.setScratch_seq (s : State) (v : Byte) : (s.setScratch v).seq = s.seq := rfl
@[simp] theorem State.setScratch_eng (s : State) (v : Byte) : (s.setScratch v).eng = s.eng := rfl
@[simp] theorem State.setScratch_call (s : State) (v : Byte) : (s.setScratch v).call = s.call := rfl
@[simp] theorem State.setScratch_env (s : State) (v : Byte) : (s.setScratch v).env = s.env := rfl
@[simp] theorem State.setScratch_mem (s : State) (v : Byte) : (s.setScratch v).mem = s.mem := rfl
@[simp] theorem State.setScratch_turns (s : State) (v : Byte) : (s.setScratch v).turns = s.turns := rfl
@[simp] theorem State.setScratch_trace (s : State) (v : Byte) : (s.setScratch v).trace = s.trace := rfl
@[simp] theorem State.setScratch_fault (s : State) (v : Byte) : (s.setScratch v).fault = s.fault := rfl
@[simp] theorem State.setScratch_refusals (s : State) (v : Byte) : (s.setScratch v).refusals = s.refusals := rfl

@[simp] theorem State.armLatches_cfg (s : State) : s.armLatches.cfg = s.cfg := rfl
@[simp] theorem State.armLatches_ctx (s : State) : s.armLatches.ctx = s.ctx := rfl
@[simp] theorem State.armLatches_regs (s : State) : s.armLatches.regs = s.regs := rfl
@[simp] theorem State.armLatches_eng (s : State) : s.armLatches.eng = s.eng := rfl
@[simp] theorem State.armLatches_call (s : State) : s.armLatches.call = s.call := rfl
@[simp] theorem State.armLatches_env (s : State) : s.armLatches.env = s.env := rfl
@[simp] theorem State.armLatches_mem (s : State) : s.armLatches.mem = s.mem := rfl
@[simp] theorem State.armLatches_turns (s : State) : s.armLatches.turns = s.turns := rfl
@[simp] theorem State.armLatches_trace (s : State) : s.armLatches.trace = s.trace := rfl
@[simp] theorem State.armLatches_fault (s : State) : s.armLatches.fault = s.fault := rfl
@[simp] theorem State.armLatches_refusals (s : State) : s.armLatches.refusals = s.refusals := rfl

@[simp] theorem State.loadDr_cfg (s : State) (v : Byte) : (s.loadDr v).cfg = s.cfg := rfl
@[simp] theorem State.loadDr_ctx (s : State) (v : Byte) : (s.loadDr v).ctx = s.ctx := rfl
@[simp] theorem State.loadDr_seq (s : State) (v : Byte) : (s.loadDr v).seq = s.seq := rfl
@[simp] theorem State.loadDr_eng (s : State) (v : Byte) : (s.loadDr v).eng = s.eng := rfl
@[simp] theorem State.loadDr_call (s : State) (v : Byte) : (s.loadDr v).call = s.call := rfl
@[simp] theorem State.loadDr_env (s : State) (v : Byte) : (s.loadDr v).env = s.env := rfl
@[simp] theorem State.loadDr_mem (s : State) (v : Byte) : (s.loadDr v).mem = s.mem := rfl
@[simp] theorem State.loadDr_turns (s : State) (v : Byte) : (s.loadDr v).turns = s.turns := rfl
@[simp] theorem State.loadDr_trace (s : State) (v : Byte) : (s.loadDr v).trace = s.trace := rfl
@[simp] theorem State.loadDr_fault (s : State) (v : Byte) : (s.loadDr v).fault = s.fault := rfl
@[simp] theorem State.loadDr_refusals (s : State) (v : Byte) : (s.loadDr v).refusals = s.refusals := rfl

@[simp] theorem State.storeByte_cfg (s : State) (a : Nat) (v : Byte) : (s.storeByte a v).cfg = s.cfg := rfl
@[simp] theorem State.storeByte_ctx (s : State) (a : Nat) (v : Byte) : (s.storeByte a v).ctx = s.ctx := rfl
@[simp] theorem State.storeByte_regs (s : State) (a : Nat) (v : Byte) : (s.storeByte a v).regs = s.regs := rfl
@[simp] theorem State.storeByte_seq (s : State) (a : Nat) (v : Byte) : (s.storeByte a v).seq = s.seq := rfl
@[simp] theorem State.storeByte_eng (s : State) (a : Nat) (v : Byte) : (s.storeByte a v).eng = s.eng := rfl
@[simp] theorem State.storeByte_call (s : State) (a : Nat) (v : Byte) : (s.storeByte a v).call = s.call := rfl
@[simp] theorem State.storeByte_env (s : State) (a : Nat) (v : Byte) : (s.storeByte a v).env = s.env := rfl
@[simp] theorem State.storeByte_turns (s : State) (a : Nat) (v : Byte) : (s.storeByte a v).turns = s.turns := rfl
@[simp] theorem State.storeByte_trace (s : State) (a : Nat) (v : Byte) : (s.storeByte a v).trace = s.trace := rfl
@[simp] theorem State.storeByte_fault (s : State) (a : Nat) (v : Byte) : (s.storeByte a v).fault = s.fault := rfl
@[simp] theorem State.storeByte_refusals (s : State) (a : Nat) (v : Byte) : (s.storeByte a v).refusals = s.refusals := rfl

@[simp] theorem State.mark_cfg (s : State) (m : RefusalMark) : (s.mark m).cfg = s.cfg := rfl
@[simp] theorem State.mark_ctx (s : State) (m : RefusalMark) : (s.mark m).ctx = s.ctx := rfl
@[simp] theorem State.mark_regs (s : State) (m : RefusalMark) : (s.mark m).regs = s.regs := rfl
@[simp] theorem State.mark_seq (s : State) (m : RefusalMark) : (s.mark m).seq = s.seq := rfl
@[simp] theorem State.mark_eng (s : State) (m : RefusalMark) : (s.mark m).eng = s.eng := rfl
@[simp] theorem State.mark_call (s : State) (m : RefusalMark) : (s.mark m).call = s.call := rfl
@[simp] theorem State.mark_env (s : State) (m : RefusalMark) : (s.mark m).env = s.env := rfl
@[simp] theorem State.mark_mem (s : State) (m : RefusalMark) : (s.mark m).mem = s.mem := rfl
@[simp] theorem State.mark_turns (s : State) (m : RefusalMark) : (s.mark m).turns = s.turns := rfl
@[simp] theorem State.mark_trace (s : State) (m : RefusalMark) : (s.mark m).trace = s.trace := rfl
@[simp] theorem State.mark_fault (s : State) (m : RefusalMark) : (s.mark m).fault = s.fault := rfl

@[simp] theorem State.enterService_cfg (s : State) : s.enterService.cfg = s.cfg := rfl
@[simp] theorem State.enterService_ctx (s : State) : s.enterService.ctx = s.ctx := rfl
@[simp] theorem State.enterService_regs (s : State) : s.enterService.regs = s.regs := rfl
@[simp] theorem State.enterService_seq (s : State) : s.enterService.seq = s.seq := rfl
@[simp] theorem State.enterService_call (s : State) : s.enterService.call = s.call := rfl
@[simp] theorem State.enterService_env (s : State) : s.enterService.env = s.env := rfl
@[simp] theorem State.enterService_mem (s : State) : s.enterService.mem = s.mem := rfl
@[simp] theorem State.enterService_turns (s : State) : s.enterService.turns = s.turns := rfl
@[simp] theorem State.enterService_trace (s : State) : s.enterService.trace = s.trace := rfl
@[simp] theorem State.enterService_fault (s : State) : s.enterService.fault = s.fault := rfl
@[simp] theorem State.enterService_refusals (s : State) : s.enterService.refusals = s.refusals := rfl

@[simp] theorem State.endBranch_cfg (s : State) : s.endBranch.cfg = s.cfg := rfl
@[simp] theorem State.endBranch_ctx (s : State) : s.endBranch.ctx = s.ctx := rfl
@[simp] theorem State.endBranch_regs (s : State) : s.endBranch.regs = s.regs := rfl
@[simp] theorem State.endBranch_seq (s : State) : s.endBranch.seq = s.seq := rfl
@[simp] theorem State.endBranch_call (s : State) : s.endBranch.call = s.call := rfl
@[simp] theorem State.endBranch_env (s : State) : s.endBranch.env = s.env := rfl
@[simp] theorem State.endBranch_mem (s : State) : s.endBranch.mem = s.mem := rfl
@[simp] theorem State.endBranch_turns (s : State) : s.endBranch.turns = s.turns := rfl
@[simp] theorem State.endBranch_trace (s : State) : s.endBranch.trace = s.trace := rfl
@[simp] theorem State.endBranch_fault (s : State) : s.endBranch.fault = s.fault := rfl
@[simp] theorem State.endBranch_refusals (s : State) : s.endBranch.refusals = s.refusals := rfl

@[simp] theorem State.endEpiErr_cfg (s : State) : s.endEpiErr.cfg = s.cfg := rfl
@[simp] theorem State.endEpiErr_ctx (s : State) : s.endEpiErr.ctx = s.ctx := rfl
@[simp] theorem State.endEpiErr_regs (s : State) : s.endEpiErr.regs = s.regs := rfl
@[simp] theorem State.endEpiErr_seq (s : State) : s.endEpiErr.seq = s.seq := rfl
@[simp] theorem State.endEpiErr_call (s : State) : s.endEpiErr.call = s.call := rfl
@[simp] theorem State.endEpiErr_env (s : State) : s.endEpiErr.env = s.env := rfl
@[simp] theorem State.endEpiErr_mem (s : State) : s.endEpiErr.mem = s.mem := rfl
@[simp] theorem State.endEpiErr_turns (s : State) : s.endEpiErr.turns = s.turns := rfl
@[simp] theorem State.endEpiErr_trace (s : State) : s.endEpiErr.trace = s.trace := rfl
@[simp] theorem State.endEpiErr_fault (s : State) : s.endEpiErr.fault = s.fault := rfl
@[simp] theorem State.endEpiErr_refusals (s : State) : s.endEpiErr.refusals = s.refusals := rfl

@[simp] theorem State.leaveService_cfg (s : State) : s.leaveService.cfg = s.cfg := rfl
@[simp] theorem State.leaveService_ctx (s : State) : s.leaveService.ctx = s.ctx := rfl
@[simp] theorem State.leaveService_regs (s : State) : s.leaveService.regs = s.regs := rfl
@[simp] theorem State.leaveService_seq (s : State) : s.leaveService.seq = s.seq := rfl
@[simp] theorem State.leaveService_call (s : State) : s.leaveService.call = s.call := rfl
@[simp] theorem State.leaveService_env (s : State) : s.leaveService.env = s.env := rfl
@[simp] theorem State.leaveService_mem (s : State) : s.leaveService.mem = s.mem := rfl
@[simp] theorem State.leaveService_turns (s : State) : s.leaveService.turns = s.turns := rfl
@[simp] theorem State.leaveService_trace (s : State) : s.leaveService.trace = s.trace := rfl
@[simp] theorem State.leaveService_fault (s : State) : s.leaveService.fault = s.fault := rfl
@[simp] theorem State.leaveService_refusals (s : State) : s.leaveService.refusals = s.refusals := rfl

@[simp] theorem State.skipPhase_cfg (s : State) : s.skipPhase.cfg = s.cfg := by unfold State.skipPhase; split <;> rfl
@[simp] theorem State.skipPhase_ctx (s : State) : s.skipPhase.ctx = s.ctx := by unfold State.skipPhase; split <;> rfl
@[simp] theorem State.skipPhase_regs (s : State) : s.skipPhase.regs = s.regs := by unfold State.skipPhase; split <;> rfl
@[simp] theorem State.skipPhase_seq (s : State) : s.skipPhase.seq = s.seq := by unfold State.skipPhase; split <;> rfl
@[simp] theorem State.skipPhase_call (s : State) : s.skipPhase.call = s.call := by unfold State.skipPhase; split <;> rfl
@[simp] theorem State.skipPhase_env (s : State) : s.skipPhase.env = s.env := by unfold State.skipPhase; split <;> rfl
@[simp] theorem State.skipPhase_mem (s : State) : s.skipPhase.mem = s.mem := by unfold State.skipPhase; split <;> rfl
@[simp] theorem State.skipPhase_turns (s : State) : s.skipPhase.turns = s.turns := by unfold State.skipPhase; split <;> rfl
@[simp] theorem State.skipPhase_trace (s : State) : s.skipPhase.trace = s.trace := by unfold State.skipPhase; split <;> rfl
@[simp] theorem State.skipPhase_fault (s : State) : s.skipPhase.fault = s.fault := by unfold State.skipPhase; split <;> rfl
@[simp] theorem State.skipPhase_refusals (s : State) : s.skipPhase.refusals = s.refusals := by unfold State.skipPhase; split <;> rfl

@[simp] theorem State.onWire_cfg (s : State) (w : Wire) : (s.onWire w).cfg = s.cfg := rfl
@[simp] theorem State.onWire_ctx (s : State) (w : Wire) : (s.onWire w).ctx = s.ctx := rfl
@[simp] theorem State.onWire_regs (s : State) (w : Wire) : (s.onWire w).regs = s.regs := rfl
@[simp] theorem State.onWire_seq (s : State) (w : Wire) : (s.onWire w).seq = s.seq := rfl
@[simp] theorem State.onWire_eng (s : State) (w : Wire) : (s.onWire w).eng = s.eng := rfl
@[simp] theorem State.onWire_call (s : State) (w : Wire) : (s.onWire w).call = s.call := rfl
@[simp] theorem State.onWire_mem (s : State) (w : Wire) : (s.onWire w).mem = s.mem := rfl
@[simp] theorem State.onWire_turns (s : State) (w : Wire) : (s.onWire w).turns = s.turns := rfl
@[simp] theorem State.onWire_fault (s : State) (w : Wire) : (s.onWire w).fault = s.fault := rfl
@[simp] theorem State.onWire_refusals (s : State) (w : Wire) : (s.onWire w).refusals = s.refusals := rfl

@[simp] theorem State.completeAddrClear_cfg (s : State) : s.completeAddrClear.cfg = s.cfg := by unfold State.completeAddrClear; split <;> rfl
@[simp] theorem State.completeAddrClear_ctx (s : State) : s.completeAddrClear.ctx = s.ctx := by unfold State.completeAddrClear; split <;> rfl
@[simp] theorem State.completeAddrClear_eng (s : State) : s.completeAddrClear.eng = s.eng := by unfold State.completeAddrClear; split <;> rfl
@[simp] theorem State.completeAddrClear_call (s : State) : s.completeAddrClear.call = s.call := by unfold State.completeAddrClear; split <;> rfl
@[simp] theorem State.completeAddrClear_env (s : State) : s.completeAddrClear.env = s.env := by unfold State.completeAddrClear; split <;> rfl
@[simp] theorem State.completeAddrClear_mem (s : State) : s.completeAddrClear.mem = s.mem := by unfold State.completeAddrClear; split <;> rfl
@[simp] theorem State.completeAddrClear_turns (s : State) : s.completeAddrClear.turns = s.turns := by unfold State.completeAddrClear; split <;> rfl
@[simp] theorem State.completeAddrClear_trace (s : State) : s.completeAddrClear.trace = s.trace := by unfold State.completeAddrClear; split <;> rfl
@[simp] theorem State.completeAddrClear_fault (s : State) : s.completeAddrClear.fault = s.fault := by unfold State.completeAddrClear; split <;> rfl
@[simp] theorem State.completeAddrClear_refusals (s : State) : s.completeAddrClear.refusals = s.refusals := by unfold State.completeAddrClear; split <;> rfl

@[simp] theorem State.completeSbClear_cfg (s : State) (v : Byte) : (s.completeSbClear v).cfg = s.cfg := by unfold State.completeSbClear; split <;> rfl
@[simp] theorem State.completeSbClear_ctx (s : State) (v : Byte) : (s.completeSbClear v).ctx = s.ctx := by unfold State.completeSbClear; split <;> rfl
@[simp] theorem State.completeSbClear_eng (s : State) (v : Byte) : (s.completeSbClear v).eng = s.eng := by unfold State.completeSbClear; split <;> rfl
@[simp] theorem State.completeSbClear_call (s : State) (v : Byte) : (s.completeSbClear v).call = s.call := by unfold State.completeSbClear; split <;> rfl
@[simp] theorem State.completeSbClear_mem (s : State) (v : Byte) : (s.completeSbClear v).mem = s.mem := by unfold State.completeSbClear; split <;> rfl
@[simp] theorem State.completeSbClear_turns (s : State) (v : Byte) : (s.completeSbClear v).turns = s.turns := by unfold State.completeSbClear; split <;> rfl
@[simp] theorem State.completeSbClear_trace (s : State) (v : Byte) : (s.completeSbClear v).trace = s.trace := by unfold State.completeSbClear; split <;> rfl
@[simp] theorem State.completeSbClear_fault (s : State) (v : Byte) : (s.completeSbClear v).fault = s.fault := by unfold State.completeSbClear; split <;> rfl
@[simp] theorem State.completeSbClear_refusals (s : State) (v : Byte) : (s.completeSbClear v).refusals = s.refusals := by unfold State.completeSbClear; split <;> rfl

@[simp] theorem State.completeStopClear_cfg (s : State) : s.completeStopClear.cfg = s.cfg := by unfold State.completeStopClear; split <;> rfl
@[simp] theorem State.completeStopClear_ctx (s : State) : s.completeStopClear.ctx = s.ctx := by unfold State.completeStopClear; split <;> rfl
@[simp] theorem State.completeStopClear_eng (s : State) : s.completeStopClear.eng = s.eng := by unfold State.completeStopClear; split <;> rfl
@[simp] theorem State.completeStopClear_call (s : State) : s.completeStopClear.call = s.call := by unfold State.completeStopClear; split <;> rfl
@[simp] theorem State.completeStopClear_env (s : State) : s.completeStopClear.env = s.env := by unfold State.completeStopClear; split <;> rfl
@[simp] theorem State.completeStopClear_mem (s : State) : s.completeStopClear.mem = s.mem := by unfold State.completeStopClear; split <;> rfl
@[simp] theorem State.completeStopClear_turns (s : State) : s.completeStopClear.turns = s.turns := by unfold State.completeStopClear; split <;> rfl
@[simp] theorem State.completeStopClear_trace (s : State) : s.completeStopClear.trace = s.trace := by unfold State.completeStopClear; split <;> rfl
@[simp] theorem State.completeStopClear_fault (s : State) : s.completeStopClear.fault = s.fault := by unfold State.completeStopClear; split <;> rfl
@[simp] theorem State.completeStopClear_refusals (s : State) : s.completeStopClear.refusals = s.refusals := by unfold State.completeStopClear; split <;> rfl

@[simp] theorem State.readEffect_cfg (s : State) (r : RegName) : (s.readEffect r).cfg = s.cfg := by cases r <;> simp [State.readEffect]
@[simp] theorem State.readEffect_ctx (s : State) (r : RegName) : (s.readEffect r).ctx = s.ctx := by cases r <;> simp [State.readEffect]
@[simp] theorem State.readEffect_eng (s : State) (r : RegName) : (s.readEffect r).eng = s.eng := by cases r <;> simp [State.readEffect]
@[simp] theorem State.readEffect_call (s : State) (r : RegName) : (s.readEffect r).call = s.call := by cases r <;> simp [State.readEffect]
@[simp] theorem State.readEffect_env (s : State) (r : RegName) : (s.readEffect r).env = s.env := by cases r <;> simp [State.readEffect]
@[simp] theorem State.readEffect_mem (s : State) (r : RegName) : (s.readEffect r).mem = s.mem := by cases r <;> simp [State.readEffect]
@[simp] theorem State.readEffect_turns (s : State) (r : RegName) : (s.readEffect r).turns = s.turns := by cases r <;> simp [State.readEffect]
@[simp] theorem State.readEffect_trace (s : State) (r : RegName) : (s.readEffect r).trace = s.trace := by cases r <;> simp [State.readEffect]
@[simp] theorem State.readEffect_fault (s : State) (r : RegName) : (s.readEffect r).fault = s.fault := by cases r <;> simp [State.readEffect]
@[simp] theorem State.readEffect_refusals (s : State) (r : RegName) : (s.readEffect r).refusals = s.refusals := by cases r <;> simp [State.readEffect]

@[simp] theorem State.writeEffect_cfg (s : State) (v : Byte) (r : RegName) : (s.writeEffect v r).cfg = s.cfg := by cases r <;> simp [State.writeEffect]
@[simp] theorem State.writeEffect_ctx (s : State) (v : Byte) (r : RegName) : (s.writeEffect v r).ctx = s.ctx := by cases r <;> simp [State.writeEffect]
@[simp] theorem State.writeEffect_eng (s : State) (v : Byte) (r : RegName) : (s.writeEffect v r).eng = s.eng := by cases r <;> simp [State.writeEffect]
@[simp] theorem State.writeEffect_call (s : State) (v : Byte) (r : RegName) : (s.writeEffect v r).call = s.call := by cases r <;> simp [State.writeEffect]
@[simp] theorem State.writeEffect_mem (s : State) (v : Byte) (r : RegName) : (s.writeEffect v r).mem = s.mem := by cases r <;> simp [State.writeEffect]
@[simp] theorem State.writeEffect_turns (s : State) (v : Byte) (r : RegName) : (s.writeEffect v r).turns = s.turns := by cases r <;> simp [State.writeEffect]
@[simp] theorem State.writeEffect_trace (s : State) (v : Byte) (r : RegName) : (s.writeEffect v r).trace = s.trace := by cases r <;> simp [State.writeEffect]
@[simp] theorem State.writeEffect_fault (s : State) (v : Byte) (r : RegName) : (s.writeEffect v r).fault = s.fault := by cases r <;> simp [State.writeEffect]
@[simp] theorem State.writeEffect_refusals (s : State) (v : Byte) (r : RegName) : (s.writeEffect v r).refusals = s.refusals := by cases r <;> simp [State.writeEffect]

@[simp] theorem State.afterRead_cfg (s : State) (t : Tag) (r : RegName) : (s.afterRead t r).cfg = s.cfg := by simp [State.afterRead]
@[simp] theorem State.afterRead_ctx (s : State) (t : Tag) (r : RegName) : (s.afterRead t r).ctx = s.ctx := by simp [State.afterRead]
@[simp] theorem State.afterRead_eng (s : State) (t : Tag) (r : RegName) : (s.afterRead t r).eng = s.eng := by simp [State.afterRead]
@[simp] theorem State.afterRead_call (s : State) (t : Tag) (r : RegName) : (s.afterRead t r).call = s.call := by simp [State.afterRead]
@[simp] theorem State.afterRead_env (s : State) (t : Tag) (r : RegName) : (s.afterRead t r).env = s.env := by simp [State.afterRead]
@[simp] theorem State.afterRead_mem (s : State) (t : Tag) (r : RegName) : (s.afterRead t r).mem = s.mem := by simp [State.afterRead]
@[simp] theorem State.afterRead_turns (s : State) (t : Tag) (r : RegName) : (s.afterRead t r).turns = s.turns := by simp [State.afterRead]
@[simp] theorem State.afterRead_fault (s : State) (t : Tag) (r : RegName) : (s.afterRead t r).fault = s.fault := by simp [State.afterRead]
@[simp] theorem State.afterRead_refusals (s : State) (t : Tag) (r : RegName) : (s.afterRead t r).refusals = s.refusals := by simp [State.afterRead]

@[simp] theorem State.readScratch_cfg (s : State) (t : Tag) (r : RegName) : (s.readScratch t r).cfg = s.cfg := by simp [State.readScratch]
@[simp] theorem State.readScratch_eng (s : State) (t : Tag) (r : RegName) : (s.readScratch t r).eng = s.eng := by simp [State.readScratch]
@[simp] theorem State.readScratch_call (s : State) (t : Tag) (r : RegName) : (s.readScratch t r).call = s.call := by simp [State.readScratch]
@[simp] theorem State.readScratch_env (s : State) (t : Tag) (r : RegName) : (s.readScratch t r).env = s.env := by simp [State.readScratch]
@[simp] theorem State.readScratch_mem (s : State) (t : Tag) (r : RegName) : (s.readScratch t r).mem = s.mem := by simp [State.readScratch]
@[simp] theorem State.readScratch_turns (s : State) (t : Tag) (r : RegName) : (s.readScratch t r).turns = s.turns := by simp [State.readScratch]
@[simp] theorem State.readScratch_fault (s : State) (t : Tag) (r : RegName) : (s.readScratch t r).fault = s.fault := by simp [State.readScratch]
@[simp] theorem State.readScratch_refusals (s : State) (t : Tag) (r : RegName) : (s.readScratch t r).refusals = s.refusals := by simp [State.readScratch]

@[simp] theorem State.writeReg_cfg (s : State) (t : Tag) (r : RegName) (v : Byte) : (s.writeReg t r v).cfg = s.cfg := by simp [State.writeReg]
@[simp] theorem State.writeReg_ctx (s : State) (t : Tag) (r : RegName) (v : Byte) : (s.writeReg t r v).ctx = s.ctx := by simp [State.writeReg]
@[simp] theorem State.writeReg_eng (s : State) (t : Tag) (r : RegName) (v : Byte) : (s.writeReg t r v).eng = s.eng := by simp [State.writeReg]
@[simp] theorem State.writeReg_call (s : State) (t : Tag) (r : RegName) (v : Byte) : (s.writeReg t r v).call = s.call := by simp [State.writeReg]
@[simp] theorem State.writeReg_mem (s : State) (t : Tag) (r : RegName) (v : Byte) : (s.writeReg t r v).mem = s.mem := by simp [State.writeReg]
@[simp] theorem State.writeReg_turns (s : State) (t : Tag) (r : RegName) (v : Byte) : (s.writeReg t r v).turns = s.turns := by simp [State.writeReg]
@[simp] theorem State.writeReg_fault (s : State) (t : Tag) (r : RegName) (v : Byte) : (s.writeReg t r v).fault = s.fault := by simp [State.writeReg]
@[simp] theorem State.writeReg_refusals (s : State) (t : Tag) (r : RegName) (v : Byte) : (s.writeReg t r v).refusals = s.refusals := by simp [State.writeReg]

@[simp] theorem State.sendByte_cfg (s : State) (t : Tag) (v : Byte) : (s.sendByte t v).cfg = s.cfg := rfl
@[simp] theorem State.sendByte_ctx (s : State) (t : Tag) (v : Byte) : (s.sendByte t v).ctx = s.ctx := rfl
@[simp] theorem State.sendByte_seq (s : State) (t : Tag) (v : Byte) : (s.sendByte t v).seq = s.seq := rfl
@[simp] theorem State.sendByte_eng (s : State) (t : Tag) (v : Byte) : (s.sendByte t v).eng = s.eng := rfl
@[simp] theorem State.sendByte_call (s : State) (t : Tag) (v : Byte) : (s.sendByte t v).call = s.call := rfl
@[simp] theorem State.sendByte_env (s : State) (t : Tag) (v : Byte) : (s.sendByte t v).env = s.env := rfl
@[simp] theorem State.sendByte_mem (s : State) (t : Tag) (v : Byte) : (s.sendByte t v).mem = s.mem := rfl
@[simp] theorem State.sendByte_turns (s : State) (t : Tag) (v : Byte) : (s.sendByte t v).turns = s.turns := rfl
@[simp] theorem State.sendByte_fault (s : State) (t : Tag) (v : Byte) : (s.sendByte t v).fault = s.fault := rfl
@[simp] theorem State.sendByte_refusals (s : State) (t : Tag) (v : Byte) : (s.sendByte t v).refusals = s.refusals := rfl

@[simp] theorem State.sendAddress_cfg (s : State) (a : Option Addr7) : (s.sendAddress a).cfg = s.cfg := rfl
@[simp] theorem State.sendAddress_ctx (s : State) (a : Option Addr7) : (s.sendAddress a).ctx = s.ctx := rfl
@[simp] theorem State.sendAddress_regs (s : State) (a : Option Addr7) : (s.sendAddress a).regs = s.regs := rfl
@[simp] theorem State.sendAddress_seq (s : State) (a : Option Addr7) : (s.sendAddress a).seq = s.seq := rfl
@[simp] theorem State.sendAddress_eng (s : State) (a : Option Addr7) : (s.sendAddress a).eng = s.eng := rfl
@[simp] theorem State.sendAddress_call (s : State) (a : Option Addr7) : (s.sendAddress a).call = s.call := rfl
@[simp] theorem State.sendAddress_mem (s : State) (a : Option Addr7) : (s.sendAddress a).mem = s.mem := rfl
@[simp] theorem State.sendAddress_turns (s : State) (a : Option Addr7) : (s.sendAddress a).turns = s.turns := rfl
@[simp] theorem State.sendAddress_trace (s : State) (a : Option Addr7) : (s.sendAddress a).trace = s.trace := rfl
@[simp] theorem State.sendAddress_fault (s : State) (a : Option Addr7) : (s.sendAddress a).fault = s.fault := rfl
@[simp] theorem State.sendAddress_refusals (s : State) (a : Option Addr7) : (s.sendAddress a).refusals = s.refusals := rfl

@[simp] theorem State.writeBit_cfg (s : State) (t : Tag) (r : RegName) (k : Nat) (b : Bool) : (s.writeBit t r k b).cfg = s.cfg := by simp [State.writeBit]
@[simp] theorem State.writeBit_ctx (s : State) (t : Tag) (r : RegName) (k : Nat) (b : Bool) : (s.writeBit t r k b).ctx = s.ctx := by simp [State.writeBit]
@[simp] theorem State.writeBit_eng (s : State) (t : Tag) (r : RegName) (k : Nat) (b : Bool) : (s.writeBit t r k b).eng = s.eng := by simp [State.writeBit]
@[simp] theorem State.writeBit_call (s : State) (t : Tag) (r : RegName) (k : Nat) (b : Bool) : (s.writeBit t r k b).call = s.call := by simp [State.writeBit]
@[simp] theorem State.writeBit_mem (s : State) (t : Tag) (r : RegName) (k : Nat) (b : Bool) : (s.writeBit t r k b).mem = s.mem := by simp [State.writeBit]
@[simp] theorem State.writeBit_turns (s : State) (t : Tag) (r : RegName) (k : Nat) (b : Bool) : (s.writeBit t r k b).turns = s.turns := by simp [State.writeBit]
@[simp] theorem State.writeBit_fault (s : State) (t : Tag) (r : RegName) (k : Nat) (b : Bool) : (s.writeBit t r k b).fault = s.fault := by simp [State.writeBit]
@[simp] theorem State.writeBit_refusals (s : State) (t : Tag) (r : RegName) (k : Nat) (b : Bool) : (s.writeBit t r k b).refusals = s.refusals := by simp [State.writeBit]

@[simp] theorem State.setAck_cfg (s : State) (t : Tag) (b : Bool) : (s.setAck t b).cfg = s.cfg := by simp [State.setAck]
@[simp] theorem State.setAck_ctx (s : State) (t : Tag) (b : Bool) : (s.setAck t b).ctx = s.ctx := by simp [State.setAck]
@[simp] theorem State.setAck_eng (s : State) (t : Tag) (b : Bool) : (s.setAck t b).eng = s.eng := by simp [State.setAck]
@[simp] theorem State.setAck_call (s : State) (t : Tag) (b : Bool) : (s.setAck t b).call = s.call := by simp [State.setAck]
@[simp] theorem State.setAck_mem (s : State) (t : Tag) (b : Bool) : (s.setAck t b).mem = s.mem := by simp [State.setAck]
@[simp] theorem State.setAck_turns (s : State) (t : Tag) (b : Bool) : (s.setAck t b).turns = s.turns := by simp [State.setAck]
@[simp] theorem State.setAck_fault (s : State) (t : Tag) (b : Bool) : (s.setAck t b).fault = s.fault := by simp [State.setAck]
@[simp] theorem State.setAck_refusals (s : State) (t : Tag) (b : Bool) : (s.setAck t b).refusals = s.refusals := by simp [State.setAck]

@[simp] theorem State.requestStart_cfg (s : State) (t : Tag) : (s.requestStart t).cfg = s.cfg := by simp [State.requestStart]
@[simp] theorem State.requestStart_ctx (s : State) (t : Tag) : (s.requestStart t).ctx = s.ctx := by simp [State.requestStart]
@[simp] theorem State.requestStart_eng (s : State) (t : Tag) : (s.requestStart t).eng = s.eng := by simp [State.requestStart]
@[simp] theorem State.requestStart_call (s : State) (t : Tag) : (s.requestStart t).call = s.call := by simp [State.requestStart]
@[simp] theorem State.requestStart_mem (s : State) (t : Tag) : (s.requestStart t).mem = s.mem := by simp [State.requestStart]
@[simp] theorem State.requestStart_turns (s : State) (t : Tag) : (s.requestStart t).turns = s.turns := by simp [State.requestStart]
@[simp] theorem State.requestStart_fault (s : State) (t : Tag) : (s.requestStart t).fault = s.fault := by simp [State.requestStart]
@[simp] theorem State.requestStart_refusals (s : State) (t : Tag) : (s.requestStart t).refusals = s.refusals := by simp [State.requestStart]

@[simp] theorem State.requestStop_cfg (s : State) (t : Tag) : (s.requestStop t).cfg = s.cfg := by simp [State.requestStop]
@[simp] theorem State.requestStop_ctx (s : State) (t : Tag) : (s.requestStop t).ctx = s.ctx := by simp [State.requestStop]
@[simp] theorem State.requestStop_eng (s : State) (t : Tag) : (s.requestStop t).eng = s.eng := by simp [State.requestStop]
@[simp] theorem State.requestStop_call (s : State) (t : Tag) : (s.requestStop t).call = s.call := by simp [State.requestStop]
@[simp] theorem State.requestStop_mem (s : State) (t : Tag) : (s.requestStop t).mem = s.mem := by simp [State.requestStop]
@[simp] theorem State.requestStop_turns (s : State) (t : Tag) : (s.requestStop t).turns = s.turns := by simp [State.requestStop]
@[simp] theorem State.requestStop_fault (s : State) (t : Tag) : (s.requestStop t).fault = s.fault := by simp [State.requestStop]
@[simp] theorem State.requestStop_refusals (s : State) (t : Tag) : (s.requestStop t).refusals = s.refusals := by simp [State.requestStop]

@[simp] theorem State.clearErr_cfg (s : State) (e : Nibble) (k : ErrFlag) : (s.clearErr e k).cfg = s.cfg := by unfold State.clearErr; split <;> simp
@[simp] theorem State.clearErr_ctx (s : State) (e : Nibble) (k : ErrFlag) : (s.clearErr e k).ctx = s.ctx := by unfold State.clearErr; split <;> simp
@[simp] theorem State.clearErr_eng (s : State) (e : Nibble) (k : ErrFlag) : (s.clearErr e k).eng = s.eng := by unfold State.clearErr; split <;> simp
@[simp] theorem State.clearErr_call (s : State) (e : Nibble) (k : ErrFlag) : (s.clearErr e k).call = s.call := by unfold State.clearErr; split <;> simp
@[simp] theorem State.clearErr_mem (s : State) (e : Nibble) (k : ErrFlag) : (s.clearErr e k).mem = s.mem := by unfold State.clearErr; split <;> simp
@[simp] theorem State.clearErr_turns (s : State) (e : Nibble) (k : ErrFlag) : (s.clearErr e k).turns = s.turns := by unfold State.clearErr; split <;> simp
@[simp] theorem State.clearErr_fault (s : State) (e : Nibble) (k : ErrFlag) : (s.clearErr e k).fault = s.fault := by unfold State.clearErr; split <;> simp
@[simp] theorem State.clearErr_refusals (s : State) (e : Nibble) (k : ErrFlag) : (s.clearErr e k).refusals = s.refusals := by unfold State.clearErr; split <;> simp

@[simp] theorem State.clearErrs_cfg (s : State) (e : Nibble) : (s.clearErrs e).cfg = s.cfg := by simp [State.clearErrs]
@[simp] theorem State.clearErrs_ctx (s : State) (e : Nibble) : (s.clearErrs e).ctx = s.ctx := by simp [State.clearErrs]
@[simp] theorem State.clearErrs_eng (s : State) (e : Nibble) : (s.clearErrs e).eng = s.eng := by simp [State.clearErrs]
@[simp] theorem State.clearErrs_call (s : State) (e : Nibble) : (s.clearErrs e).call = s.call := by simp [State.clearErrs]
@[simp] theorem State.clearErrs_mem (s : State) (e : Nibble) : (s.clearErrs e).mem = s.mem := by simp [State.clearErrs]
@[simp] theorem State.clearErrs_turns (s : State) (e : Nibble) : (s.clearErrs e).turns = s.turns := by simp [State.clearErrs]
@[simp] theorem State.clearErrs_fault (s : State) (e : Nibble) : (s.clearErrs e).fault = s.fault := by simp [State.clearErrs]
@[simp] theorem State.clearErrs_refusals (s : State) (e : Nibble) : (s.clearErrs e).refusals = s.refusals := by simp [State.clearErrs]

@[simp] theorem State.stopOnError_cfg (s : State) : s.stopOnError.cfg = s.cfg := by unfold State.stopOnError; split <;> simp
@[simp] theorem State.stopOnError_ctx (s : State) : s.stopOnError.ctx = s.ctx := by unfold State.stopOnError; split <;> simp
@[simp] theorem State.stopOnError_eng (s : State) : s.stopOnError.eng = s.eng := by unfold State.stopOnError; split <;> simp
@[simp] theorem State.stopOnError_call (s : State) : s.stopOnError.call = s.call := by unfold State.stopOnError; split <;> simp
@[simp] theorem State.stopOnError_mem (s : State) : s.stopOnError.mem = s.mem := by unfold State.stopOnError; split <;> simp
@[simp] theorem State.stopOnError_turns (s : State) : s.stopOnError.turns = s.turns := by unfold State.stopOnError; split <;> simp
@[simp] theorem State.stopOnError_fault (s : State) : s.stopOnError.fault = s.fault := by unfold State.stopOnError; split <;> simp
@[simp] theorem State.stopOnError_refusals (s : State) : s.stopOnError.refusals = s.refusals := by unfold State.stopOnError; split <;> simp

/-! ### Fields an update sets -/

@[simp] theorem State.emit_trace (s : State) (t : Tag) (e : Event) : (s.emit t e).trace = s.trace ++ [⟨t, e⟩] := rfl
@[simp] theorem State.setRole_ctx (s : State) (r : Role) : (s.setRole r).ctx = { s.ctx with role := r } := rfl
@[simp] theorem State.setCursor_ctx (s : State) (v : Nat) : (s.setCursor v).ctx = { s.ctx with cursor := v } := rfl
@[simp] theorem State.incCursor_ctx (s : State) :
    s.incCursor.ctx = { s.ctx with cursor := (s.ctx.cursor + 1) % s.cfg.lenSpan } := rfl
@[simp] theorem State.setScratch_ctx (s : State) (v : Byte) :
    (s.setScratch v).ctx = { s.ctx with scratch := some v } := rfl
@[simp] theorem State.armLatches_seq (s : State) :
    s.armLatches.seq = ⟨s.seq.sbArmed || s.regs.sb, s.seq.addrArmed || s.regs.addr, s.seq.stopArmed || s.regs.stopf⟩ :=
  rfl
@[simp] theorem State.storeByte_mem (s : State) (a : Nat) (v : Byte) : (s.storeByte a v).mem = s.mem.write a v := rfl
@[simp] theorem State.mark_refusals (s : State) (m : RefusalMark) : (s.mark m).refusals = s.refusals ++ [m] := rfl
@[simp] theorem State.enterService_eng (s : State) : s.enterService.eng = .branch := rfl
@[simp] theorem State.endBranch_eng (s : State) : s.endBranch.eng = .epiErr := rfl
@[simp] theorem State.endEpiErr_eng (s : State) : s.endEpiErr.eng = .epiStop := rfl
@[simp] theorem State.leaveService_eng (s : State) : s.leaveService.eng = .idle := rfl
@[simp] theorem State.onWire_trace (s : State) (w : Wire) : (s.onWire w).trace = s.trace ++ [⟨.env, .wire w⟩] := rfl
@[simp] theorem State.onWire_env (s : State) (w : Wire) : (s.onWire w).env = { s.env with lastWire := some w } := rfl
@[simp] theorem State.afterRead_trace (s : State) (t : Tag) (r : RegName) :
    (s.afterRead t r).trace = s.trace ++ [⟨t, .regRd r (s.regVal r)⟩] := by simp [State.afterRead]
@[simp] theorem State.readScratch_trace (s : State) (t : Tag) (r : RegName) :
    (s.readScratch t r).trace = s.trace ++ [⟨t, .regRd r (s.regVal r)⟩] := by simp [State.readScratch]
@[simp] theorem State.readScratch_ctx (s : State) (t : Tag) (r : RegName) :
    (s.readScratch t r).ctx = { s.ctx with scratch := some (s.regVal r) } := by simp [State.readScratch]
@[simp] theorem State.readScratch_regs (s : State) (t : Tag) (r : RegName) :
    (s.readScratch t r).regs = (s.afterRead t r).regs := rfl
@[simp] theorem State.readScratch_seq (s : State) (t : Tag) (r : RegName) :
    (s.readScratch t r).seq = (s.afterRead t r).seq := rfl
@[simp] theorem State.writeReg_trace (s : State) (t : Tag) (r : RegName) (v : Byte) :
    (s.writeReg t r v).trace = s.trace ++ [⟨t, .regWr r v⟩] := by simp [State.writeReg]

end Sys2Proof.Machine
end

