-- ==== Sys2Proof/Laws/Bits.lean ====
section
/-!
SUPPORT. Bits and flags: what `putBit` does to each bit, and what each flag update does to each flag.
-/

namespace Sys2Proof.Machine

/-- A bit of a byte with one bit set to `b`. -/
theorem getLsbD_putBit (v : Byte) (k j : Nat) (b : Bool) (hk : k < 8) :
    (putBit v k b).getLsbD j = if j = k then b else v.getLsbD j := by
  have hone : (1#8).getLsbD (j - k) = decide (j - k = 0) := by
    rw [BitVec.getLsbD_one]; simp
  unfold putBit
  by_cases hjk : j = k
  · subst hjk
    cases b <;> simp [hk]
  · by_cases hj : j < 8
    · cases b <;> simp [hjk, hj]
      all_goals omega
    · cases b <;> simp [BitVec.getLsbD_of_ge _ _ (Nat.le_of_not_lt hj), hjk]

/-- The same, as an indexed bit. -/
theorem getElem_putBit (v : Byte) (k j : Nat) (b : Bool) (hk : k < 8) (hj : j < 8) :
    (putBit v k b)[j] = if j = k then b else v[j] := by
  simp only [← BitVec.getLsbD_eq_getElem]
  exact getLsbD_putBit v k j b hk

/-- Setting a bit to the value it has changes nothing. -/
theorem putBit_self (v : Byte) (k : Nat) (b : Bool) (hk : k < 8) (h : v.getLsbD k = b) : putBit v k b = v := by
  apply BitVec.eq_of_getLsbD_eq
  intro j _
  rw [getLsbD_putBit _ _ _ _ hk]
  split
  · subst_vars; rfl
  · rfl

/-- Setting a bit twice is setting it once. -/
theorem putBit_putBit_same (v : Byte) (k : Nat) (b c : Bool) (hk : k < 8) :
    putBit (putBit v k b) k c = putBit v k c := by
  apply BitVec.eq_of_getLsbD_eq
  intro j _
  simp only [getLsbD_putBit _ _ _ _ hk]
  split <;> rfl

/-- Bits set at different places commute. -/
theorem putBit_comm (v : Byte) (j k : Nat) (b c : Bool) (hj : j < 8) (hk : k < 8) (h : j ≠ k) :
    putBit (putBit v j b) k c = putBit (putBit v k c) j b := by
  apply BitVec.eq_of_getLsbD_eq
  intro i _
  simp only [getLsbD_putBit _ _ _ _ hk, getLsbD_putBit _ _ _ _ hj]
  by_cases h1 : i = k <;> by_cases h2 : i = j <;> simp_all

/-- A bit inside a mask survives the mask. -/
theorem putBit_and_mask (v m : Byte) (k : Nat) (b : Bool) (hk : k < 8) (hm : m.getLsbD k = true) :
    putBit v k b &&& m = putBit (v &&& m) k b := by
  apply BitVec.eq_of_getLsbD_eq
  intro j _
  simp only [BitVec.getLsbD_and, getLsbD_putBit _ _ _ _ hk]
  split
  · subst_vars; simp [hm]
  · rfl

/-- No bit outside a mask stays so where the bit set is inside it. -/
theorem putBit_outside (v m : Byte) (k : Nat) (b : Bool) (hk : k < 8) (hm : m.getLsbD k = true)
    (h : v &&& ~~~m = 0#8) : putBit v k b &&& ~~~m = 0#8 := by
  apply BitVec.eq_of_getLsbD_eq
  intro j hj
  have h' := congrArg (·.getLsbD j) h
  simp only [BitVec.getLsbD_and, BitVec.getLsbD_not, BitVec.getLsbD_zero] at h' ⊢
  rw [getLsbD_putBit _ _ _ _ hk]
  split
  · subst_vars; simp [hm]
  · exact h'

/-- Masking twice is masking once. -/
theorem and_mask_mask (v m : Byte) : v &&& m &&& m = v &&& m := by
  rw [BitVec.and_assoc, BitVec.and_self]

/-- What a mask has let through has no bit outside it. -/
theorem and_mask_outside (v m : Byte) : v &&& m &&& ~~~m = 0#8 := by
  apply BitVec.eq_of_getLsbD_eq
  intro j hj
  simp only [BitVec.getLsbD_and, BitVec.getLsbD_not, BitVec.getLsbD_zero, hj, decide_true, Bool.true_and]
  cases m.getLsbD j <;> simp

/-- The index of an error flag lies in `SR2[3:0]`. -/
theorem ErrFlag.index_lt (k : ErrFlag) : k.index < 4 := by cases k <;> decide

/-- The four error flags have different places. -/
theorem ErrFlag.index_inj {j k : ErrFlag} : j.index = k.index ↔ j = k := by cases j <;> cases k <;> decide

/-! ### A flag read after a flag is set -/

section
variable (g : Regs) (b : Bool)

@[simp] theorem Regs.setSb_sb : (g.setSb b).sb = b := by simp [Regs.setSb, Regs.sb, getElem_putBit]
@[simp] theorem Regs.setSb_addr : (g.setSb b).addr = g.addr := by simp [Regs.setSb, Regs.addr, getElem_putBit]
@[simp] theorem Regs.setSb_stopf : (g.setSb b).stopf = g.stopf := by simp [Regs.setSb, Regs.stopf, getElem_putBit]
@[simp] theorem Regs.setSb_rxne : (g.setSb b).rxne = g.rxne := by simp [Regs.setSb, Regs.rxne, getElem_putBit]
@[simp] theorem Regs.setSb_txe : (g.setSb b).txe = g.txe := by simp [Regs.setSb, Regs.txe, getElem_putBit]
@[simp] theorem Regs.setAddr_sb : (g.setAddr b).sb = g.sb := by simp [Regs.setAddr, Regs.sb, getElem_putBit]
@[simp] theorem Regs.setAddr_addr : (g.setAddr b).addr = b := by simp [Regs.setAddr, Regs.addr, getElem_putBit]
@[simp] theorem Regs.setAddr_stopf : (g.setAddr b).stopf = g.stopf := by
  simp [Regs.setAddr, Regs.stopf, getElem_putBit]
@[simp] theorem Regs.setAddr_rxne : (g.setAddr b).rxne = g.rxne := by simp [Regs.setAddr, Regs.rxne, getElem_putBit]
@[simp] theorem Regs.setAddr_txe : (g.setAddr b).txe = g.txe := by simp [Regs.setAddr, Regs.txe, getElem_putBit]
@[simp] theorem Regs.setStopf_sb : (g.setStopf b).sb = g.sb := by simp [Regs.setStopf, Regs.sb, getElem_putBit]
@[simp] theorem Regs.setStopf_addr : (g.setStopf b).addr = g.addr := by
  simp [Regs.setStopf, Regs.addr, getElem_putBit]
@[simp] theorem Regs.setStopf_stopf : (g.setStopf b).stopf = b := by simp [Regs.setStopf, Regs.stopf, getElem_putBit]
@[simp] theorem Regs.setStopf_rxne : (g.setStopf b).rxne = g.rxne := by
  simp [Regs.setStopf, Regs.rxne, getElem_putBit]
@[simp] theorem Regs.setStopf_txe : (g.setStopf b).txe = g.txe := by simp [Regs.setStopf, Regs.txe, getElem_putBit]
@[simp] theorem Regs.setRxne_sb : (g.setRxne b).sb = g.sb := by simp [Regs.setRxne, Regs.sb, getElem_putBit]
@[simp] theorem Regs.setRxne_addr : (g.setRxne b).addr = g.addr := by simp [Regs.setRxne, Regs.addr, getElem_putBit]
@[simp] theorem Regs.setRxne_stopf : (g.setRxne b).stopf = g.stopf := by
  simp [Regs.setRxne, Regs.stopf, getElem_putBit]
@[simp] theorem Regs.setRxne_rxne : (g.setRxne b).rxne = b := by simp [Regs.setRxne, Regs.rxne, getElem_putBit]
@[simp] theorem Regs.setRxne_txe : (g.setRxne b).txe = g.txe := by simp [Regs.setRxne, Regs.txe, getElem_putBit]
@[simp] theorem Regs.setTxe_sb : (g.setTxe b).sb = g.sb := by simp [Regs.setTxe, Regs.sb, getElem_putBit]
@[simp] theorem Regs.setTxe_addr : (g.setTxe b).addr = g.addr := by simp [Regs.setTxe, Regs.addr, getElem_putBit]
@[simp] theorem Regs.setTxe_stopf : (g.setTxe b).stopf = g.stopf := by simp [Regs.setTxe, Regs.stopf, getElem_putBit]
@[simp] theorem Regs.setTxe_rxne : (g.setTxe b).rxne = g.rxne := by simp [Regs.setTxe, Regs.rxne, getElem_putBit]
@[simp] theorem Regs.setTxe_txe : (g.setTxe b).txe = b := by simp [Regs.setTxe, Regs.txe, getElem_putBit]

end

end Sys2Proof.Machine
end

