-- ==== Sys2Proof/Laws/Decode.lean ====
section
/-!
SUPPORT. The decoder: the dispatch table is total and its rows are disjoint (30_encoding.md R87), and what each
format can decode to.
-/

namespace Sys2Proof

/-- Every dispatch word is selected by a row (30_encoding.md R87). -/
theorem dispatchTable_total : ∀ w : DispatchWord, (dispatchTable.find? (·.selects w)).isSome = true := by decide

/-- No two rows select the same word (30_encoding.md R87). -/
theorem dispatchTable_disjoint :
    ∀ w : DispatchWord, (dispatchTable.filter (·.selects w)).length ≤ 1 := by decide

/-- Checked operands are the operands given. -/
theorem decodeOperands_ok {c : Config} {w : CmdWord} {make : Addr7 → Nat → Nat → Instr} {i : Instr}
    (h : decodeOperands c w make = .ok i) :
    ∃ a, i = make a w.buf w.len ∧ c.operandsFit w.buf w.len = true := by
  unfold decodeOperands at h
  split at h
  · cases h
  · rename_i a _
    split at h
    · exact ⟨a, by cases h; rfl, by assumption⟩
    · cases h

/-- Checked operands decode. -/
theorem decodeOperands_eq {c : Config} {w : CmdWord} (make : Addr7 → Nat → Nat → Instr) (ha : w.addr < 128)
    (h : c.operandsFit w.buf w.len = true) :
    decodeOperands c w make = .ok (make (BitVec.ofNat 7 w.addr) w.buf w.len) := by
  simp [decodeOperands, decodeAddr7, ha, h]

/-- Whatever a code decodes to is well-formed. -/
theorem decode_wellFormed {c : Config} {code : Code} {i : Instr} (h : decode c code = .ok i) :
    i.wellFormed c = true := by
  cases code with
  | cmd w =>
    simp only [decode, decodeCmd] at h
    split at h
    · cases h; rfl
    · split at h
      · obtain ⟨a, rfl, hw⟩ := decodeOperands_ok h; exact hw
      · split at h
        · obtain ⟨a, rfl, hw⟩ := decodeOperands_ok h
          generalize Direction.ofBit _ = d
          cases d <;> exact hw
        · cases h
  | dispatch w =>
    simp only [decode] at h
    generalize dispatchArm w = a at h
    cases a <;> cases h <;> rfl
  | epiErr e =>
    simp only [decode, decodeEpiErr] at h
    split at h
    · cases h
    · cases h; simpa [Instr.wellFormed] using ‹¬ e = 0#4›
  | epiStop v =>
    simp only [decode, decodeEpiStop] at h
    split at h <;> cases h
    rfl
  | env m => cases m <;> cases h <;> rfl

end Sys2Proof
end

