-- ==== Sys2Proof/Laws/Memory.lean ====
section
/-!
SUPPORT. The caller's data memory: a read after a write, and the canonical form is kept.
-/

namespace Sys2Proof.Machine

/-- A byte reads back as it was written. -/
theorem Memory.read_write_same (m : Memory) (a : Nat) (v : Byte) : (m.write a v).read a = some v := by
  induction m with
  | nil => simp [Memory.write, Memory.read]
  | cons c m ih =>
    unfold Memory.write
    split
    · simp [Memory.read]
    · split
      · simp [Memory.read]
      · simp [Memory.read, *]

/-- A write leaves every other address as it was. -/
theorem Memory.read_write_other (m : Memory) (a b : Nat) (v : Byte) (h : b ≠ a) :
    (m.write a v).read b = m.read b := by
  induction m with
  | nil => simp [Memory.write, Memory.read, h]
  | cons c m ih =>
    unfold Memory.write
    split
    · simp [Memory.read, h]
    · split
      · rename_i heq
        simp [Memory.read, h, ← heq]
      · simp [Memory.read, ih]

/-- Every address a write leaves listed was listed before, or is the one written. -/
theorem Memory.mem_write (m : Memory) (a : Nat) (v : Byte) (c : Host.Cell) (h : c ∈ m.write a v) :
    c ∈ m ∨ c.1 = a := by
  induction m with
  | nil => simp [Memory.write] at h; simp [h]
  | cons d m ih =>
    unfold Memory.write at h
    split at h
    · rcases List.mem_cons.1 h with rfl | h
      · exact .inr rfl
      · exact .inl h
    · split at h
      · rcases List.mem_cons.1 h with rfl | h
        · exact .inr rfl
        · exact .inl (List.mem_cons_of_mem _ h)
      · rcases List.mem_cons.1 h with rfl | h
        · exact .inl List.mem_cons_self
        · exact (ih h).imp (List.mem_cons_of_mem _) id

/-- A write keeps the addresses strictly rising. -/
theorem Memory.write_wf (m : Memory) (a : Nat) (v : Byte) (h : m.wf) : (m.write a v).wf := by
  induction m with
  | nil => simp [Memory.write, Memory.wf]
  | cons c m ih =>
    have hc := List.pairwise_cons.1 h
    unfold Memory.write
    split
    · rename_i hlt
      refine List.pairwise_cons.2 ⟨fun d hd => ?_, h⟩
      rcases List.mem_cons.1 hd with rfl | hd
      · exact hlt
      · exact Nat.lt_trans hlt (hc.1 d hd)
    · split
      · rename_i heq
        exact List.pairwise_cons.2 ⟨fun d hd => heq ▸ hc.1 d hd, hc.2⟩
      · rename_i hlt hne
        refine List.pairwise_cons.2 ⟨fun d hd => ?_, ih hc.2⟩
        rcases Memory.mem_write m a v d hd with hd | hd
        · exact hc.1 d hd
        · simp only at hlt hne ⊢; omega

/-- The memory at reset has the form. -/
theorem State.resetWith_mem_wf (c : Config) : (State.resetWith c).mem.wf := List.Pairwise.nil

/-- A store is read back at its address. -/
@[simp] theorem State.byteAt_storeByte_same (s : State) (a : Nat) (v : Byte) : (s.storeByte a v).byteAt a = v := by
  simp [State.byteAt, Memory.read_write_same]

/-- A store leaves every other byte as it was. -/
theorem State.byteAt_storeByte_other (s : State) (a b : Nat) (v : Byte) (h : b ≠ a) :
    (s.storeByte a v).byteAt b = s.byteAt b := by
  simp [State.byteAt, Memory.read_write_other _ _ _ _ h]

end Sys2Proof.Machine
end

