-- ==== Sys2Proof/Laws/Regs.lean ====
section
/-!
SUPPORT. What each register access does to the registers, the latches and the environment: one lemma per register
and part, cited instead of unfolding an access.
-/

namespace Sys2Proof.Machine

/-! ### The value a read returns -/

@[simp] theorem State.regVal_cr1 (s : State) : s.regVal .cr1 = s.regs.cr1 &&& 0x01#8 := rfl
@[simp] theorem State.regVal_cr2 (s : State) : s.regVal .cr2 = s.regs.cr2 &&& 0x07#8 := rfl
@[simp] theorem State.regVal_sr1 (s : State) : s.regVal .sr1 = s.regs.sr1 &&& 0xD3#8 := rfl
@[simp] theorem State.regVal_sr2 (s : State) : s.regVal .sr2 = s.regs.sr2 &&& 0x0F#8 := rfl
@[simp] theorem State.regVal_sr3 (s : State) : s.regVal .sr3 = s.regs.sr3 &&& 0x07#8 := rfl
@[simp] theorem State.regVal_itr (s : State) : s.regVal .itr = s.regs.itr &&& 0x07#8 := rfl
@[simp] theorem State.regVal_dr (s : State) : s.regVal .dr = s.regs.delivered := by
  simp only [State.regVal, Regs.stored, implMask]
  exact BitVec.and_allOnes (x := s.regs.delivered)

/-- The value depends on the registers alone. -/
theorem State.regVal_congr {s t : State} (h : t.regs = s.regs) (r : RegName) : t.regVal r = s.regVal r := by
  simp [State.regVal, h]

/-! ### Reads -/

@[simp] theorem State.afterRead_sr1_regs (s : State) (t : Tag) : (s.afterRead t .sr1).regs = s.regs := rfl
@[simp] theorem State.afterRead_sr1_seq (s : State) (t : Tag) :
    (s.afterRead t .sr1).seq =
      ⟨s.seq.sbArmed || s.regs.sb, s.seq.addrArmed || s.regs.addr, s.seq.stopArmed || s.regs.stopf⟩ := rfl
@[simp] theorem State.afterRead_sr2_regs (s : State) (t : Tag) : (s.afterRead t .sr2).regs = s.regs := rfl
@[simp] theorem State.afterRead_sr2_seq (s : State) (t : Tag) : (s.afterRead t .sr2).seq = s.seq := rfl
@[simp] theorem State.afterRead_cr2_regs (s : State) (t : Tag) : (s.afterRead t .cr2).regs = s.regs := rfl
@[simp] theorem State.afterRead_cr2_seq (s : State) (t : Tag) : (s.afterRead t .cr2).seq = s.seq := rfl
@[simp] theorem State.afterRead_dr_regs (s : State) (t : Tag) :
    (s.afterRead t .dr).regs = s.regs.setRxne false := rfl
@[simp] theorem State.afterRead_dr_seq (s : State) (t : Tag) : (s.afterRead t .dr).seq = s.seq := rfl
@[simp] theorem State.afterRead_sr3_regs (s : State) (t : Tag) :
    (s.afterRead t .sr3).regs = if s.seq.addrArmed then s.regs.setAddr false else s.regs := by
  simp only [State.afterRead, State.readEffect, State.completeAddrClear, State.emit_regs]
  split <;> rfl
@[simp] theorem State.afterRead_sr3_seq (s : State) (t : Tag) :
    (s.afterRead t .sr3).seq = { s.seq with addrArmed := false } := by
  simp only [State.afterRead, State.readEffect, State.completeAddrClear, State.emit_seq]
  split
  · rfl
  · rename_i h
    obtain ⟨cfg, ctx, regs, ⟨a, b, c⟩, rest⟩ := s
    simp_all

/-! ### Writes -/

@[simp] theorem State.writeReg_cr1_regs (s : State) (t : Tag) (v : Byte) :
    (s.writeReg t .cr1 v).regs = { s.regs with cr1 := v &&& 0x01#8 } := rfl
@[simp] theorem State.writeReg_itr_regs (s : State) (t : Tag) (v : Byte) :
    (s.writeReg t .itr v).regs = { s.regs with itr := v &&& 0x07#8 } := rfl
@[simp] theorem State.writeReg_oar_regs (s : State) (t : Tag) (v : Byte) :
    (s.writeReg t .oar v).regs = { s.regs with oar := v &&& 0xFE#8 } := rfl
@[simp] theorem State.writeReg_freqr_regs (s : State) (t : Tag) (v : Byte) :
    (s.writeReg t .freqr v).regs = { s.regs with freqr := v } := rfl
@[simp] theorem State.writeReg_ccr_regs (s : State) (t : Tag) (v : Byte) :
    (s.writeReg t .ccr v).regs = { s.regs with ccr := v } := rfl
@[simp] theorem State.writeReg_triser_regs (s : State) (t : Tag) (v : Byte) :
    (s.writeReg t .triser v).regs = { s.regs with triser := v } := rfl
@[simp] theorem State.writeReg_sr2_regs (s : State) (t : Tag) (v : Byte) :
    (s.writeReg t .sr2 v).regs = { s.regs with sr2 := s.regs.sr2 &&& (v &&& 0x0F#8) } := rfl
@[simp] theorem State.writeReg_cr2_regs (s : State) (t : Tag) (v : Byte) :
    (s.writeReg t .cr2 v).regs =
      { s.regs with
        cr2 := v &&& 0x07#8
        sr1 := if s.seq.stopArmed then putBit s.regs.sr1 4 false else s.regs.sr1 } := by
  simp only [State.writeReg, State.writeEffect, State.completeStopClear, State.emit_regs]
  split <;> rfl
@[simp] theorem State.writeReg_dr_regs (s : State) (t : Tag) (v : Byte) :
    (s.writeReg t .dr v).regs =
      { s.regs with
        dr := v
        sr1 := if s.seq.sbArmed then putBit (putBit s.regs.sr1 7 false) 0 false
               else putBit s.regs.sr1 7 false } := by
  simp only [State.writeReg, State.writeEffect, State.completeSbClear, State.emit_regs]
  split <;> simp_all [State.loadDr, Regs.setTxe, Regs.setSb]

@[simp] theorem State.sendByte_regs (s : State) (t : Tag) (v : Byte) :
    (s.sendByte t v).regs = { s.regs with dr := v, sr1 := putBit s.regs.sr1 7 false } := rfl
@[simp] theorem State.sendByte_trace (s : State) (t : Tag) (v : Byte) :
    (s.sendByte t v).trace = s.trace ++ [⟨t, .regWr .dr v⟩] := rfl

@[simp] theorem State.writeReg_cr1_seq (s : State) (t : Tag) (v : Byte) : (s.writeReg t .cr1 v).seq = s.seq := rfl
@[simp] theorem State.writeReg_itr_seq (s : State) (t : Tag) (v : Byte) : (s.writeReg t .itr v).seq = s.seq := rfl
@[simp] theorem State.writeReg_oar_seq (s : State) (t : Tag) (v : Byte) : (s.writeReg t .oar v).seq = s.seq := rfl
@[simp] theorem State.writeReg_freqr_seq (s : State) (t : Tag) (v : Byte) : (s.writeReg t .freqr v).seq = s.seq := rfl
@[simp] theorem State.writeReg_ccr_seq (s : State) (t : Tag) (v : Byte) : (s.writeReg t .ccr v).seq = s.seq := rfl
@[simp] theorem State.writeReg_triser_seq (s : State) (t : Tag) (v : Byte) : (s.writeReg t .triser v).seq = s.seq := rfl
@[simp] theorem State.writeReg_sr2_seq (s : State) (t : Tag) (v : Byte) : (s.writeReg t .sr2 v).seq = s.seq := rfl
@[simp] theorem State.writeReg_cr2_seq (s : State) (t : Tag) (v : Byte) :
    (s.writeReg t .cr2 v).seq = { s.seq with stopArmed := false } := by
  simp only [State.writeReg, State.writeEffect, State.completeStopClear, State.emit_seq]
  split
  · rfl
  · rename_i h
    obtain ⟨cfg, ctx, regs, ⟨a, b, c⟩, rest⟩ := s
    simp_all
@[simp] theorem State.writeReg_dr_seq (s : State) (t : Tag) (v : Byte) :
    (s.writeReg t .dr v).seq = { s.seq with sbArmed := false } := by
  simp only [State.writeReg, State.writeEffect, State.completeSbClear, State.emit_seq]
  split
  · rfl
  · rename_i h
    obtain ⟨cfg, ctx, regs, ⟨a, b, c⟩, rest⟩ := s
    simp_all [State.loadDr]

@[simp] theorem State.writeReg_cr1_env (s : State) (t : Tag) (v : Byte) : (s.writeReg t .cr1 v).env = s.env := rfl
@[simp] theorem State.writeReg_itr_env (s : State) (t : Tag) (v : Byte) : (s.writeReg t .itr v).env = s.env := rfl
@[simp] theorem State.writeReg_oar_env (s : State) (t : Tag) (v : Byte) : (s.writeReg t .oar v).env = s.env := rfl
@[simp] theorem State.writeReg_freqr_env (s : State) (t : Tag) (v : Byte) : (s.writeReg t .freqr v).env = s.env := rfl
@[simp] theorem State.writeReg_ccr_env (s : State) (t : Tag) (v : Byte) : (s.writeReg t .ccr v).env = s.env := rfl
@[simp] theorem State.writeReg_triser_env (s : State) (t : Tag) (v : Byte) : (s.writeReg t .triser v).env = s.env := rfl
@[simp] theorem State.writeReg_sr2_env (s : State) (t : Tag) (v : Byte) : (s.writeReg t .sr2 v).env = s.env := rfl
@[simp] theorem State.writeReg_cr2_env (s : State) (t : Tag) (v : Byte) : (s.writeReg t .cr2 v).env = s.env := by
  simp [State.writeReg, State.writeEffect]
@[simp] theorem State.writeReg_dr_env (s : State) (t : Tag) (v : Byte) :
    (s.writeReg t .dr v).env =
      if s.seq.sbArmed then { s.env with addrByte := v, addrPhase := .sent } else s.env := by
  simp only [State.writeReg, State.writeEffect, State.completeSbClear, State.emit_env]
  split <;> simp_all

/-! ### Field writes of `CR2` -/

/-- Setting a `CR2` field: the field, and `STOPF` where its latch is armed. -/
theorem State.writeBit_cr2_regs (s : State) (t : Tag) (k : Nat) (b : Bool) (hk : k < 3) :
    (s.writeBit t .cr2 k b).regs =
      { s.regs with
        cr2 := putBit (s.regs.cr2 &&& 0x07#8) k b
        sr1 := if s.seq.stopArmed then putBit s.regs.sr1 4 false else s.regs.sr1 } := by
  have hm : (0x07#8).getLsbD k = true := by
    rcases Nat.lt_or_ge k 3 with h | h
    · interval_cases k <;> decide
    · omega
  simp [State.writeBit, putBit_and_mask _ _ _ _ (by omega : k < 8) hm, and_mask_mask]

@[simp] theorem State.setAck_regs (s : State) (t : Tag) (b : Bool) :
    (s.setAck t b).regs =
      { s.regs with
        cr2 := putBit (s.regs.cr2 &&& 0x07#8) 2 b
        sr1 := if s.seq.stopArmed then putBit s.regs.sr1 4 false else s.regs.sr1 } := by
  simp [State.setAck, State.writeBit_cr2_regs]
@[simp] theorem State.requestStart_regs (s : State) (t : Tag) :
    (s.requestStart t).regs =
      { s.regs with
        cr2 := putBit (s.regs.cr2 &&& 0x07#8) 0 true
        sr1 := if s.seq.stopArmed then putBit s.regs.sr1 4 false else s.regs.sr1 } := by
  simp [State.requestStart, State.writeBit_cr2_regs]
@[simp] theorem State.requestStop_regs (s : State) (t : Tag) :
    (s.requestStop t).regs =
      { s.regs with
        cr2 := putBit (s.regs.cr2 &&& 0x07#8) 1 true
        sr1 := if s.seq.stopArmed then putBit s.regs.sr1 4 false else s.regs.sr1 } := by
  simp [State.requestStop, State.writeBit_cr2_regs]

@[simp] theorem State.setAck_seq (s : State) (t : Tag) (b : Bool) :
    (s.setAck t b).seq = { s.seq with stopArmed := false } := by simp [State.setAck, State.writeBit]
@[simp] theorem State.requestStart_seq (s : State) (t : Tag) :
    (s.requestStart t).seq = { s.seq with stopArmed := false } := by simp [State.requestStart, State.writeBit]
@[simp] theorem State.requestStop_seq (s : State) (t : Tag) :
    (s.requestStop t).seq = { s.seq with stopArmed := false } := by simp [State.requestStop, State.writeBit]

@[simp] theorem State.setAck_env (s : State) (t : Tag) (b : Bool) : (s.setAck t b).env = s.env := by
  simp [State.setAck, State.writeBit]
@[simp] theorem State.requestStart_env (s : State) (t : Tag) : (s.requestStart t).env = s.env := by
  simp [State.requestStart, State.writeBit]
@[simp] theorem State.requestStop_env (s : State) (t : Tag) : (s.requestStop t).env = s.env := by
  simp [State.requestStop, State.writeBit]

@[simp] theorem State.setAck_trace (s : State) (t : Tag) (b : Bool) :
    (s.setAck t b).trace =
      s.trace ++ [⟨t, .regWr .cr2 (putBit (s.regs.cr2 &&& 0x07#8) 2 b)⟩, ⟨t, .ackSet b⟩] := by
  simp [State.setAck, State.writeBit]
@[simp] theorem State.requestStart_trace (s : State) (t : Tag) :
    (s.requestStart t).trace =
      s.trace ++ [⟨t, .regWr .cr2 (putBit (s.regs.cr2 &&& 0x07#8) 0 true)⟩, ⟨t, .startReq⟩] := by
  simp [State.requestStart, State.writeBit]
@[simp] theorem State.requestStop_trace (s : State) (t : Tag) :
    (s.requestStop t).trace =
      s.trace ++ [⟨t, .regWr .cr2 (putBit (s.regs.cr2 &&& 0x07#8) 1 true)⟩, ⟨t, .stopReq⟩] := by
  simp [State.requestStop, State.writeBit]

/-! ### The epilogue's clears -/

/-- A clearing write clears its own flag and no other (10_state.md R42). -/
theorem clearMask_bit (j k : ErrFlag) : (clearMask k &&& 0x0F#8).getLsbD j.index = decide (j ≠ k) := by
  cases j <;> cases k <;> decide

/-- One clear: its flag where the mask holds it; every other error flag as before. -/
theorem State.clearErr_err (s : State) (e : Nibble) (j k : ErrFlag) :
    (s.clearErr e k).regs.err j = (s.regs.err j && !(decide (j = k) && e.getLsbD k.index)) := by
  unfold State.clearErr
  split
  · rename_i h
    simp only [State.writeReg_sr2_regs, Regs.err]
    rw [BitVec.getLsbD_and, clearMask_bit]
    by_cases hjk : j = k <;> simp_all
  · rename_i h
    simp_all

/-- The four clears: exactly the flags of the mask are cleared (43_epilogue.md R182). -/
theorem State.clearErrs_err (s : State) (e : Nibble) (j : ErrFlag) :
    (s.clearErrs e).regs.err j = (s.regs.err j && !e.getLsbD j.index) := by
  cases j <;> simp [State.clearErrs, State.clearErr_err]

@[simp] theorem State.clearErr_seq (s : State) (e : Nibble) (k : ErrFlag) : (s.clearErr e k).seq = s.seq := by
  unfold State.clearErr; split <;> simp
@[simp] theorem State.clearErr_env (s : State) (e : Nibble) (k : ErrFlag) : (s.clearErr e k).env = s.env := by
  unfold State.clearErr; split <;> simp
@[simp] theorem State.clearErrs_seq (s : State) (e : Nibble) : (s.clearErrs e).seq = s.seq := by
  simp [State.clearErrs]
@[simp] theorem State.clearErrs_env (s : State) (e : Nibble) : (s.clearErrs e).env = s.env := by
  simp [State.clearErrs]

/-- A clear touches no register but `SR2`. -/
theorem State.clearErr_regs (s : State) (e : Nibble) (k : ErrFlag) :
    (s.clearErr e k).regs = { s.regs with sr2 := (s.clearErr e k).regs.sr2 } := by
  unfold State.clearErr; split <;> simp

/-- The clears touch no register but `SR2`. -/
theorem State.clearErrs_regs (s : State) (e : Nibble) :
    (s.clearErrs e).regs = { s.regs with sr2 := (s.clearErrs e).regs.sr2 } := by
  unfold State.clearErrs
  rw [State.clearErr_regs _ e .ovr, State.clearErr_regs _ e .af, State.clearErr_regs _ e .arlo,
    State.clearErr_regs _ e .berr]

end Sys2Proof.Machine
end

