-- ==== Sys2Proof/Laws/Operands.lean ====
section
/-!
SUPPORT. What the operand forms can do, said once each: a context field is read or the read faults; a buffer element
is reached, or its address wraps, or the agent is stuck.
-/

namespace Sys2Proof.Machine

/-- A fault taken is a next state with the reason recorded and nothing else changed. -/
theorem raiseFault_eq (r : FaultReason) (s : State) :
    raiseFault r s = .next { s with fault := some (s.fault.getD r) } := by
  unfold raiseFault; cases s.fault <;> rfl

/-- A fault taken where none is recorded. -/
theorem raiseFault_none {r : FaultReason} {s : State} (h : s.fault = none) :
    raiseFault r s = .next { s with fault := some r } := by simp [raiseFault_eq, h]

@[simp] theorem needField_some {α : Type} (v : α) (s : State) (k : α → Result) : needField (some v) s k = k v := rfl
@[simp] theorem needField_none {α : Type} (s : State) (k : α → Result) :
    needField none s k = raiseFault .unwrittenRead s := rfl

/-- Reading a field that answers a next state: the field was written and the rest answers it, or the fault is
recorded. -/
theorem needField_next {α : Type} {f : Option α} {s t : State} {k : α → Result} (h : needField f s k = .next t) :
    (∃ v, f = some v ∧ k v = .next t) ∨
      (f = none ∧ t = { s with fault := some (s.fault.getD .unwrittenRead) }) := by
  cases f with
  | none => right; simp only [needField_none, raiseFault_eq] at h; exact ⟨rfl, by cases h; rfl⟩
  | some v => exact .inl ⟨v, rfl, h⟩

/-- A buffer element inside the address space and the launch memory is reached. -/
theorem atElement_ok {base cursor : Nat} {s : State} (k : Nat → Result) (h : s.hasAddr (base + cursor) = true) :
    atElement base cursor s k = k (base + cursor) := by
  have : base + cursor < s.cfg.addrSpan := by
    have := (Bool.and_eq_true _ _).mp h
    exact of_decide_eq_true this.1
  simp [atElement, h, Nat.not_le.2 this]

/-- Beyond the address space the access faults (20_memory.md R69). -/
theorem atElement_wrap {base cursor : Nat} {s : State} (k : Nat → Result) (h : s.cfg.addrSpan ≤ base + cursor) :
    atElement base cursor s k = raiseFault .addressWrap s := by simp [atElement, h]

/-- Outside the launch memory the agent is stuck (20_memory.md R68). -/
theorem atElement_stuck {base cursor : Nat} {s : State} (k : Nat → Result) (h : base + cursor < s.cfg.addrSpan)
    (h' : s.hasAddr (base + cursor) = false) : atElement base cursor s k = .fault .stuck := by
  simp [atElement, h', Nat.not_le.2 h]

/-- Reaching an element that answers a next state: it was reached, or the wrap is recorded. -/
theorem atElement_next {base cursor : Nat} {s t : State} {k : Nat → Result}
    (h : atElement base cursor s k = .next t) :
    (s.hasAddr (base + cursor) = true ∧ k (base + cursor) = .next t) ∨
      (s.cfg.addrSpan ≤ base + cursor ∧ t = { s with fault := some (s.fault.getD .addressWrap) }) := by
  unfold atElement at h
  split at h
  · right; rw [raiseFault_eq] at h; exact ⟨by assumption, by cases h; rfl⟩
  · split at h
    · exact .inl ⟨by assumption, h⟩
    · cases h

/-- A byte read where the element is there. -/
theorem memRead_ok {t : Tag} {base cursor : Nat} {s : State} (k : Byte → State → Result)
    (h : s.hasAddr (base + cursor) = true) :
    memRead t base cursor s k =
      k (s.byteAt (base + cursor)) (s.emit t (.memRd (base + cursor) (s.byteAt (base + cursor)))) := by
  simp [memRead, atElement_ok _ h]

/-- A byte written where the element is there. -/
theorem memWrite_ok {t : Tag} {base cursor : Nat} {v : Byte} {s : State} (k : State → Result)
    (h : s.hasAddr (base + cursor) = true) :
    memWrite t base cursor v s k =
      k ((s.storeByte (base + cursor) v).emit t (.memWr (base + cursor) v)) := by
  simp [memWrite, atElement_ok _ h]

/-- The last index of a buffer that is not empty (10_state.md R27). -/
theorem lastIndex_pos {c : Config} {n : Nat} (h : 0 < n) (h' : n < c.lenSpan) : lastIndex c n = n - 1 := by
  unfold lastIndex
  rw [show n + (c.lenSpan - 1) = (n - 1) + c.lenSpan by omega, Nat.add_mod_right]
  exact Nat.mod_eq_of_lt (by omega)

/-- The last index of an empty buffer is the largest value (10_state.md R27). -/
theorem lastIndex_zero (c : Config) : lastIndex c 0 = c.lenSpan - 1 := by
  unfold lastIndex
  rw [Nat.zero_add]
  exact Nat.mod_eq_of_lt (by have : 0 < c.lenSpan := Nat.two_pow_pos _; omega)

end Sys2Proof.Machine
end

