-- ==== Sys2Proof/Laws/PerInstr.lean ====
section
/-!
SUPPORT. Statements made per operation. Family `DecodesWellFormed`: a code that decodes to the operation, decodes to
it in a well-formed form.
-/

namespace Sys2Proof.Laws.DecodesWellFormed

/-- Every code that decodes to `i` finds `i` well-formed. -/
def Statement (i : Instr) : Prop :=
  ∀ (c : Config) (code : Code), decode c code = .ok i → i.wellFormed c = true

theorem init : Statement .init := fun _ _ h => decode_wellFormed h
theorem cfgSlave (a : Addr7) (b n : Nat) : Statement (.cfgSlave a b n) := fun _ _ h => decode_wellFormed h
theorem armWrite (a : Addr7) (b n : Nat) : Statement (.armWrite a b n) := fun _ _ h => decode_wellFormed h
theorem armRead (a : Addr7) (b n : Nat) : Statement (.armRead a b n) := fun _ _ h => decode_wellFormed h
theorem mStart : Statement .mStart := fun _ _ h => decode_wellFormed h
theorem mAddr : Statement .mAddr := fun _ _ h => decode_wellFormed h
theorem mTx : Statement .mTx := fun _ _ h => decode_wellFormed h
theorem mTxUnexpected : Statement .mTxUnexpected := fun _ _ h => decode_wellFormed h
theorem mTxIdle : Statement .mTxIdle := fun _ _ h => decode_wellFormed h
theorem mRx : Statement .mRx := fun _ _ h => decode_wellFormed h
theorem mRxIdle : Statement .mRxIdle := fun _ _ h => decode_wellFormed h
theorem sAddr : Statement .sAddr := fun _ _ h => decode_wellFormed h
theorem sRx : Statement .sRx := fun _ _ h => decode_wellFormed h
theorem sTx : Statement .sTx := fun _ _ h => decode_wellFormed h
theorem sIdle : Statement .sIdle := fun _ _ h => decode_wellFormed h
theorem epiErr (e : Nibble) : Statement (.epiErr e) := fun _ _ h => decode_wellFormed h
theorem epiStop : Statement .epiStop := fun _ _ h => decode_wellFormed h
theorem envStartdone : Statement .envStartdone := fun _ _ h => decode_wellFormed h
theorem envAddrack : Statement .envAddrack := fun _ _ h => decode_wellFormed h
theorem envAddrnack : Statement .envAddrnack := fun _ _ h => decode_wellFormed h
theorem envTxack : Statement .envTxack := fun _ _ h => decode_wellFormed h
theorem envTxnack : Statement .envTxnack := fun _ _ h => decode_wellFormed h
theorem envRxbyte (b : Byte) : Statement (.envRxbyte b) := fun _ _ h => decode_wellFormed h
theorem envStopdone (f : Bool) : Statement (.envStopdone f) := fun _ _ h => decode_wellFormed h
theorem envBusstart : Statement .envBusstart := fun _ _ h => decode_wellFormed h
theorem envMatch (d : Bool) : Statement (.envMatch d) := fun _ _ h => decode_wellFormed h
theorem envPeerstop : Statement .envPeerstop := fun _ _ h => decode_wellFormed h
theorem envErr (k : ErrFlag) : Statement (.envErr k) := fun _ _ h => decode_wellFormed h

end Sys2Proof.Laws.DecodesWellFormed
end

