-- ==== Sys2Proof/Laws/Step.lean ====
section
/-!
SUPPORT. A step from a state without a fault, turn by turn.
-/

namespace Sys2Proof.Machine

/-- A recorded fault stops every step (10_state.md R48). -/
theorem step_halted {s : State} {r : FaultReason} (h : s.fault = some r) : step s = .fault (.halted r) := by
  simp [step, h]

/-- A step without a fault runs what the turn comes to. -/
theorem step_run {s : State} (h : s.fault = none) : step s = run (fetch s) := by simp [step, h]

/-- A step that answers a next state starts without a fault. -/
theorem fault_none_of_step {s t : State} (h : step s = .next t) : s.fault = none := by
  cases hf : s.fault with
  | none => rfl
  | some r => rw [step_halted hf] at h; cases h

@[simp] theorem run_quiet (o : Result) : run (.quiet o) = o := rfl
@[simp] theorem run_resume (i : Instr) (s : State) : run (.resume i s) = exec i s := rfl

/-- A code that decodes is run. -/
theorem run_code_ok {c : Code} {s : State} {i : Instr} (h : decode s.cfg c = .ok i) : run (.code c s) = exec i s := by
  simp [run, h]

/-- A code that selects nothing. -/
theorem run_code_error {c : Code} {s : State} {e : DecodeError} (h : decode s.cfg c = .error e) :
    run (.code c s) = notDecoded e s := by simp [run, h]

/-- What is run answers a next state only through an operation, a code that selects nothing, or quietly. -/
theorem run_next {f : Fetched} {t : State} (h : run f = .next t) :
    (∃ o, f = .quiet o ∧ o = .next t) ∨ (∃ i s, f = .resume i s ∧ exec i s = .next t) ∨
      (∃ c s i, f = .code c s ∧ decode s.cfg c = .ok i ∧ exec i s = .next t) ∨
        (∃ c s e, f = .code c s ∧ decode s.cfg c = .error e ∧ notDecoded e s = .next t) := by
  cases f with
  | quiet o => exact .inl ⟨o, rfl, h⟩
  | resume i s => exact .inr (.inl ⟨i, s, rfl, h⟩)
  | code c s =>
    simp only [run] at h
    split at h
    · exact .inr (.inr (.inl ⟨c, s, _, rfl, by assumption, h⟩))
    · exact .inr (.inr (.inr ⟨c, s, _, rfl, by assumption, h⟩))

end Sys2Proof.Machine
end

