-- ==== Sys2Proof/Machine/Program.lean ====
section
/-!
DEFINITION. Programs (30_encoding.md R93, R94): the lines of the text syntax, the turns each stands for, the
pseudo-instructions, and the reader of a line's characters.
-/

namespace Sys2Proof.Machine

/-- A line of a program (30_encoding.md R93). -/
inductive Line where
  | cmd (w : CmdWord)
  | env (m : EnvWord)
  /-- `SVC`: one whole service step with no environment move inside it. -/
  | svc
  /-- A callback body attached by the program; R93 gives it no text (60_exceptions.md R226). -/
  | callback (b : CallbackBody)
  deriving DecidableEq, Repr

/-- `write peer, buf, len` (30_encoding.md R94). -/
def pseudoWrite (peer buf len : Nat) : CmdWord := ⟨0b0100#4, peer, buf, len⟩

/-- `read peer, buf, len` (30_encoding.md R94). -/
def pseudoRead (peer buf len : Nat) : CmdWord := ⟨0b0101#4, peer, buf, len⟩

/-- `armMasterTransaction(d, peer, buf, len)`: opcode `{010, d}` (30_encoding.md R94). -/
def pseudoArm (d : Direction) (peer buf len : Nat) : CmdWord := ⟨0b010#3 ++ BitVec.ofBool d.bit, peer, buf, len⟩

/-- The turns of a line. An arming line runs its phases A, B (one spin step) and C back to back; `SVC` is the
service entry and the three phases (95_test_vectors.md section 0). `MATCH` comes after the address byte it answers. -/
def Line.turns : Line → List Turn
  | .cmd w =>
    if w.op &&& 0b1110#4 = 0b0100#4 then [.command w, .caller, .caller] else [.command w]
  | .env (.matched d) => [.called none, .env (.matched d)]
  | .env m => [.env m]
  | .callback b => [.callback b]
  | .svc => [.engine, .engine, .engine, .engine]

/-- A program laid in front of the block: its turns come after those already due (log 1). -/
def State.load (s : State) (p : List Line) : State := s.arrive (p.flatMap Line.turns)

/-! ### Reading a line -/

/-- The value of a digit in base 16. -/
def hexDigit (c : Char) : Option Nat :=
  if '0' ≤ c ∧ c ≤ '9' then some (c.toNat - '0'.toNat)
  else if 'a' ≤ c ∧ c ≤ 'f' then some (c.toNat - 'a'.toNat + 10)
  else if 'A' ≤ c ∧ c ≤ 'F' then some (c.toNat - 'A'.toNat + 10)
  else none

/-- Digits of a base, most significant first, after a value already read. -/
def readDigits (base : Nat) : Nat → List Char → Option Nat
  | acc, [] => some acc
  | acc, c :: cs =>
    match hexDigit c with
    | some d => if d < base then readDigits base (acc * base + d) cs else none
    | none => none

/-- A number: hexadecimal after `0x`, else decimal (30_encoding.md R93). -/
def readNumber : List Char → Option Nat
  | [] => none
  | '0' :: 'x' :: c :: cs => readDigits 16 0 (c :: cs)
  | c :: cs => readDigits 10 0 (c :: cs)

/-- A `buf` operand: a symbolic base, or a number (30_encoding.md R93). -/
def readBuffer (bases : List (List Char × Nat)) (w : List Char) : Option Nat :=
  match bases.find? (fun b => b.1 == w) with
  | some b => some b.2
  | none => readNumber w

/-- The words of a line: blanks and commas separate them. -/
def splitWords : List Char → List (List Char)
  | [] => []
  | c :: cs =>
    if c = ' ' ∨ c = ',' then [] :: splitWords cs
    else
      match splitWords cs with
      | [] => [[c]]
      | w :: ws => (c :: w) :: ws

/-- The flag `ERR k` names, as `SR2` bit index (30_encoding.md R83). -/
def readFlag (w : List Char) : Option (BitVec 2) :=
  if w = ['B', 'E', 'R', 'R'] then some 0#2
  else if w = ['A', 'R', 'L', 'O'] then some 1#2
  else if w = ['A', 'F'] then some 2#2
  else if w = ['O', 'V', 'R'] then some 3#2
  else none

/-- A command with three operands. -/
def readCommand (bases : List (List Char × Nat)) (op : Nibble) : List (List Char) → Option Line
  | [a, b, n] =>
    match readNumber a, readBuffer bases b, readNumber n with
    | some a, some b, some n => some (.cmd ⟨op, a, b, n⟩)
    | _, _, _ => none
  | _ => none

/-- A bit given as `0` or `1`. -/
def readBit (w : List Char) : Option (BitVec 1) :=
  match readNumber w with
  | some n => if n < 2 then some (BitVec.ofNat 1 n) else none
  | none => none

/-- A byte. -/
def readByte (w : List Char) : Option Byte :=
  match readNumber w with
  | some n => if n < 256 then some (BitVec.ofNat 8 n) else none
  | none => none

/-- An environment move and its argument (44_bus_environment.md R191). -/
def readEnv : List (List Char) → Option Line
  | [m] =>
    if m = "STARTDONE".toList then some (.env .startdone)
    else if m = "ADDRACK".toList then some (.env .addrack)
    else if m = "ADDRNACK".toList then some (.env .addrnack)
    else if m = "TXACK".toList then some (.env .txack)
    else if m = "TXNACK".toList then some (.env .txnack)
    else if m = "BUSSTART".toList then some (.env .busstart)
    else if m = "PEERSTOP".toList then some (.env .peerstop)
    else none
  | [m, a] =>
    if m = "RXBYTE".toList then (readByte a).map (fun b => .env (.rxbyte b))
    else if m = "STOPDONE".toList then (readBit a).map (fun f => .env (.stopdone f))
    else if m = "MATCH".toList then (readBit a).map (fun d => .env (.matched d))
    else if m = "ERR".toList then (readFlag a).map (fun k => .env (.err k))
    else none
  | _ => none

/-- The line of a row of words (30_encoding.md R93, R94). -/
def lineOfWords (bases : List (List Char × Nat)) : List (List Char) → Option Line
  | [] => none
  | m :: ops =>
    if m = "INIT".toList then (if ops = [] then some (.cmd ⟨0b0001#4, 0, 0, 0⟩) else none)
    else if m = "SVC".toList then (if ops = [] then some .svc else none)
    else if m = "CFG_SLAVE".toList then readCommand bases 0b0010#4 ops
    else if m = "ARM_WRITE".toList then readCommand bases 0b0100#4 ops
    else if m = "ARM_READ".toList then readCommand bases 0b0101#4 ops
    else if m = "write".toList then readCommand bases 0b0100#4 ops
    else if m = "read".toList then readCommand bases 0b0101#4 ops
    else if m = "ENV".toList then readEnv ops
    else none

/-- Reading a line of a program, with the values of the symbolic bases (30_encoding.md R93). -/
def readLine (bases : List (List Char × Nat)) (cs : List Char) : Option Line :=
  lineOfWords bases ((splitWords cs).filter (fun w => w ≠ []))

end Sys2Proof.Machine
end

