-- ==== Sys2Proof/Tests/Slice0.lean ====
section
/-!
SUPPORT. Tests. Every expected value is a vector of 95_test_vectors.md (named at each test) or a value worked out
by hand from a numbered rule. Buffers stand at B = 0x1000 and S = 0x2000 (section 0 of that file).
-/

namespace Sys2Proof.Tests

open Sys2Proof.Machine

/-! ### A small state -/

/-- The configuration of 95_test_vectors.md section 0. -/
def cfg : Config where
  lenBits := 8
  addrBits := 16
  regBase := 0x5210
  ownAddr := 0x11#7
  timing := ⟨0x10#8, 0x50#8, 0x11#8⟩
  powerUp := ⟨0x00#8, 0x00#8, 0x00#8⟩
  launch := [⟨0x1000, 4⟩, ⟨0x2000, 4⟩, ⟨0xFFFF, 1⟩]

/-- The reset state of that configuration. -/
def s0 : State := .resetWith cfg

/-- A context with both roles' buffers: master length `n`, capacity `cap`, the cursor at `c`. -/
def ctx (r : Role) (d : Direction) (n cap c : Nat) : Context where
  role := r
  direction := some d
  peerAddress := some 0x50#7
  masterBuffer := some 0x1000
  masterLength := some n
  slaveBuffer := some 0x2000
  slaveLength := cap
  cursor := c
  scratch := none

/-- A state with a context, `SR1`, `SR2`, `SR3`, `CR2` and `DR`, the last as delivered. -/
def st (x : Context) (sr1 sr2 sr3 cr2 dr : Byte) : State :=
  { s0 with
    ctx := x
    regs := { s0.regs with sr1 := sr1, sr2 := sr2, sr3 := sr3, cr2 := cr2, dr := dr, delivered := dr }
    mem := [(0x1000, 0x10#8), (0x1001, 0x20#8), (0x1002, 0x30#8), (0x2000, 0xC1#8), (0x2003, 0xC4#8)] }

/-- A part of the next state, where there is one. -/
def part {α : Type} (r : Result) (f : State → α) : Option α :=
  match r with
  | .next s => some (f s)
  | .fault _ => none
  | .refused _ => none

/-- The events of the next state's trace. -/
def events (s : State) : List Event := s.trace.map (·.event)

/-- The fault an outcome stops with. -/
def faultOf (r : Result) : Option Fault :=
  match r with
  | .next _ => none
  | .fault f => some f
  | .refused _ => none

/-! ### Well-formedness: an ill-formed term for each check -/

theorem test_wf_buffer_wide : (Instr.cfgSlave 0x20#7 0x10000 4).wellFormed cfg = false := by decide
theorem test_wf_capacity_wide : (Instr.cfgSlave 0x20#7 0x2000 256).wellFormed cfg = false := by decide
theorem test_wf_arm_write_buffer : (Instr.armWrite 0x50#7 0x10000 3).wellFormed cfg = false := by decide
theorem test_wf_arm_write_length : (Instr.armWrite 0x50#7 0x1000 256).wellFormed cfg = false := by decide
theorem test_wf_arm_read_buffer : (Instr.armRead 0x50#7 0x10000 2).wellFormed cfg = false := by decide
theorem test_wf_arm_read_length : (Instr.armRead 0x50#7 0x1000 256).wellFormed cfg = false := by decide
theorem test_wf_epiErr_zero : (Instr.epiErr 0#4).wellFormed cfg = false := by decide
theorem test_wf_good : (Instr.armWrite 0x50#7 0x1000 3).wellFormed cfg = true := by decide

/-! ### Decoding (95_test_vectors.md 2.1) -/

/-- What a code decodes to. -/
def dec (c : Code) : Option Instr :=
  match decode cfg c with
  | .ok i => some i
  | .error _ => none

/-- Why a code is refused. -/
def refusal (c : Code) : Option DecodeError :=
  match decode cfg c with
  | .ok _ => none
  | .error e => some e

theorem test_decode_init : dec (.cmd ⟨0b0001#4, 0, 0, 0⟩) = some .init := by decide
theorem test_decode_cfgSlave :
    dec (.cmd ⟨0b0010#4, 0x20, 0x2000, 4⟩) = some (.cfgSlave 0x20#7 0x2000 4) := by decide
theorem test_decode_armWrite :
    dec (.cmd ⟨0b0100#4, 0x50, 0x1000, 3⟩) = some (.armWrite 0x50#7 0x1000 3) := by decide
theorem test_decode_armRead :
    dec (.cmd ⟨0b0101#4, 0x50, 0x1000, 2⟩) = some (.armRead 0x50#7 0x1000 2) := by decide
theorem test_decode_reserved :
    [0b0000#4, 0b0011#4, 0b0110#4, 0b0111#4, 0b1000#4, 0b1001#4, 0b1010#4, 0b1011#4, 0b1100#4, 0b1101#4, 0b1110#4,
      0b1111#4].all (fun op => refusal (.cmd ⟨op, 0, 0, 0⟩) == some (.reservedCommand op)) = true := by decide
theorem test_decode_wide_addr : refusal (.cmd ⟨0b0010#4, 0x80, 0x2000, 4⟩) = some .operandWidth := by decide
theorem test_decode_wide_length : refusal (.cmd ⟨0b0100#4, 0x7F, 0, 256⟩) = some .operandWidth := by decide

/-- The rows of the dispatch table of 95_test_vectors.md 2.1. -/
theorem test_decode_master_words :
    ([0x50#7, 0x70#7, 0x5F#7, 0x4C#7, 0x68#7, 0x44#7, 0x47#7, 0x40#7, 0x42#7, 0x41#7, 0x62#7, 0x66#7, 0x60#7].map
      dispatchArm) =
    [.mStart, .mStart, .mStart, .mAddr, .mAddr, .mTx, .mTx, .mTxUnexpected, .mTxUnexpected, .mTxIdle, .mRx, .mRx,
      .mRxIdle] := by decide
theorem test_decode_slave_words :
    ([0x08#7, 0x0C#7, 0x18#7, 0x02#7, 0x06#7, 0x04#7, 0x05#7, 0x00#7, 0x01#7, 0x10#7].map dispatchArm) =
    [.sAddr, .sAddr, .sAddr, .sRx, .sRx, .sTx, .sTx, .sIdle, .sIdle, .sIdle] := by decide
/-- Each arm's word, bit by bit from its pattern in 30_encoding.md R86. -/
theorem test_decode_arms :
    ([0b1010000#7, 0b1001000#7, 0b1000100#7, 0b1000000#7, 0b1000001#7, 0b1100010#7, 0b1100000#7, 0b0001000#7,
      0b0000010#7, 0b0000100#7, 0b0000000#7].map fun w => dec (.dispatch w)) =
    [some .mStart, some .mAddr, some .mTx, some .mTxUnexpected, some .mTxIdle, some .mRx, some .mRxIdle,
      some .sAddr, some .sRx, some .sTx, some .sIdle] := by decide
theorem test_decode_epiErr : dec (.epiErr 0b1001#4) = some (.epiErr 0b1001#4) := by decide
theorem test_decode_epiErr_none : dec (.epiErr 0#4) = none := by decide
theorem test_decode_epiStop : (dec (.epiStop 0b00010000#8), dec (.epiStop 0b11101111#8)) = (some .epiStop, none) := by
  decide
theorem test_decode_env :
    ([EnvWord.startdone, .addrack, .addrnack, .txack, .txnack, .rxbyte 0x5A#8, .stopdone 1#1, .busstart, .matched 0#1,
      .peerstop, .err 0b01#2].map fun m => dec (.env m)) =
    [some .envStartdone, some .envAddrack, some .envAddrnack, some .envTxack, some .envTxnack,
      some (.envRxbyte 0x5A#8), some (.envStopdone true), some .envBusstart, some (.envMatch false),
      some .envPeerstop, some (.envErr .arlo)] := by decide
/-- The reading of bare table words. -/
theorem test_table_word :
    [decodeTableWord 8 0x01, decodeTableWord 8 0x50, decodeTableWord 8 0x62, decodeTableWord 8 0x10,
      decodeTableWord 7 0x04, decodeTableWord 8 0x03] =
    [some .init, some .mStart, some .mRx, some .epiStop, some .sTx, some .sRx] := by decide

/-! ### The address byte and the register interface (95_test_vectors.md 2.1, 2.2) -/

theorem test_addrByte :
    [addrByteOf 0x50#7 .write, addrByteOf 0x50#7 .read, addrByteOf 0x20#7 .write, addrByteOf 0x00#7 .write,
      addrByteOf 0x7F#7 .read] = [0xA0#8, 0xA1#8, 0x40#8, 0x00#8, 0xFF#8] := by decide
/-- V-SB-ok and V-SB-order. -/
theorem test_sb_clear :
    (((st (ctx .master .write 3 4 0) 0x01#8 0 0 0 0).afterRead .dispatch .sr1).writeReg .dispatch .dr 0xA0#8).regs.sb
      = false := by decide
theorem test_sb_order :
    ((st (ctx .master .write 3 4 0) 0x81#8 0 0 0 0).writeReg .dispatch .dr 0xA0#8).regs.sr1 = 0x01#8 := by decide
/-- V-ADDR-late and V-ADDR-order. -/
theorem test_addr_late :
    ((((st (ctx .slave .write 3 4 0) 0x02#8 0 0 0 0).afterRead .dispatch .sr1).afterRead .dispatch .cr2).afterRead
      .dispatch .sr3).regs.addr = false := by decide
theorem test_addr_order :
    ((st (ctx .slave .write 3 4 0) 0x02#8 0 0 0 0).afterRead .dispatch .sr3).regs.addr = true := by decide
/-- V-SR2-one and V-SR2-ones. -/
theorem test_sr2_clear :
    [((st (ctx .slave .write 3 4 0) 0 0x0F#8 0 0 0).writeReg .epiErr .sr2 0x0B#8).regs.sr2,
      ((st (ctx .slave .write 3 4 0) 0 0x05#8 0 0 0).writeReg .epiErr .sr2 0x0F#8).regs.sr2] = [0x0B#8, 0x05#8] := by
  decide
/-- The `pending` table. -/
theorem test_pending :
    ([(0#8, 0x07#8, 0x01#8, 0x00#8), (1#8, 0x07#8, 0x00#8, 0x00#8), (1#8, 0x07#8, 0x80#8, 0x00#8),
      (1#8, 0x02#8, 0x80#8, 0x00#8), (1#8, 0x04#8, 0x80#8, 0x00#8), (1#8, 0x02#8, 0x10#8, 0x00#8),
      (1#8, 0x01#8, 0x00#8, 0x04#8), (1#8, 0x06#8, 0x00#8, 0x04#8), (1#8, 0x00#8, 0xD3#8, 0x0F#8)].map
      fun (cr1, itr, sr1, sr2) => { s0.regs with cr1 := cr1, itr := itr, sr1 := sr1, sr2 := sr2 }.pending) =
    [false, false, true, false, false, true, true, false, false] := by decide

/-! ### Host commands (95_test_vectors.md 2.3) -/

/-- V-INIT. -/
theorem test_init :
    part (exec .init s0) (fun s => (s.regs.cr1, s.regs.itr, s.regs.oar, s.regs.cr2, s.ctx)) =
    some (0x01#8, 0x07#8, 0x22#8, 0x00#8, s0.ctx) := by decide
theorem test_init_trace :
    part (exec .init s0) events =
    some [.regWr .itr 0x00#8, .regWr .freqr 0x10#8, .regWr .ccr 0x50#8, .regWr .triser 0x11#8, .regWr .oar 0x22#8,
      .regWr .itr 0x07#8, .regWr .cr1 0x01#8] := by decide
/-- V-CFG. -/
theorem test_cfgSlave :
    part (exec (.cfgSlave 0x20#7 0x2000 4) s0)
      (fun s => ((s.regs.oar, s.ctx.slaveBuffer, s.ctx.slaveLength), (s.ctx.role, s.regs.cr2), events s)) =
    some ((0x40#8, some 0x2000, 4), (.slave, 0x04#8), [.regWr .oar 0x40#8, .regWr .cr2 0x04#8, .ackSet true]) := by decide
/-- V-ARM-W, phase A. -/
theorem test_armWrite_record :
    part (exec (.armWrite 0x50#7 0x1000 3) (st (ctx .slave .read 9 4 4) 0 0 0 0x04#8 0))
      (fun s => (s.ctx.direction, s.ctx.masterLength, s.ctx.cursor, s.ctx.role, s.call)) =
    some (some .write, some 3, 0, .master, .armWait) := by decide
/-- V-ARM-busy: one spin step with `BUSY = 1`. -/
theorem test_armRead_spin :
    part (exec (.armRead 0x50#7 0x1000 2) { st (ctx .master .read 2 4 0) 0 0 0x02#8 0x04#8 0 with call := .armWait })
      (fun s => (s.call, events s)) = some (.armWait, [.regRd .sr3 0x02#8]) := by decide
/-- Phase C (40_host_commands.md R109, R111). -/
theorem test_armRead_issue :
    part (exec (.armRead 0x50#7 0x1000 2) { st (ctx .master .read 2 4 0) 0 0 0 0 0 with call := .armIssue })
      (fun s => (s.call, s.trace)) =
    some (.ready, [⟨.command .armRead, .regWr .cr2 0x04#8⟩, ⟨.command .armRead, .ackSet true⟩,
      ⟨.command .armRead, .regWr .cr2 0x05#8⟩, ⟨.command .armRead, .startReq⟩]) := by decide
theorem test_armWrite_length_zero :
    part (exec (.armWrite 0x50#7 0x1000 0) s0) (fun s => (s.ctx.masterLength, s.ctx.role)) =
    some (some 0, .master) := by decide

/-! ### Master branch (95_test_vectors.md 2.4) -/

/-- V-MS-W. -/
theorem test_mStart_write :
    part (exec .mStart (st (ctx .master .write 3 4 0) 0x01#8 0 0 0x04#8 0))
      (fun s => (s.regs.sb, s.regs.dr, events s)) =
    some (false, 0xA0#8, [.regRd .sr1 0x01#8, .regWr .dr 0xA0#8]) := by decide
/-- V-MS-both, with Read. -/
theorem test_mStart_both :
    part (exec .mStart (st (ctx .master .read 3 4 0) 0x03#8 0 0 0x04#8 0))
      (fun s => (s.regs.sr1, s.seq.addrArmed, s.regs.dr, s.eng)) = some (0x02#8, true, 0xA1#8, .epiErr) := by decide
/-- V-MA. -/
theorem test_mAddr :
    part (exec .mAddr (st (ctx .master .write 3 4 0) 0x82#8 0 0x07#8 0x04#8 0))
      (fun s => (s.regs.sr1, s.ctx.cursor, events s)) =
    some (0x80#8, 0, [.regRd .sr1 0x82#8, .regRd .sr3 0x07#8]) := by decide
/-- V-MT-last. -/
theorem test_mTx_last :
    part (exec .mTx (st (ctx .master .write 3 4 2) 0x80#8 0 0x07#8 0x04#8 0))
      (fun s => (s.ctx.cursor, s.ctx.role, s.regs.cr2, events s)) =
    some (3, .slave, 0x06#8, [.memRd 0x1002 0x30#8, .regWr .dr 0x30#8, .regWr .cr2 0x06#8, .stopReq,
      .cbMasterWriteDone 0x1000 3]) := by decide
/-- V-MT-0. -/
theorem test_mTx_zero :
    part (exec .mTx (st (ctx .master .write 0 4 0) 0x80#8 0 0x07#8 0x04#8 0))
      (fun s => (s.ctx.cursor, s.ctx.role, s.regs.txe, events s)) =
    some (0, .slave, true, [.regWr .cr2 0x06#8, .stopReq, .cbMasterWriteDone 0x1000 0]) := by decide
/-- V-MT-unexp. -/
theorem test_mTxUnexpected :
    part (exec .mTxUnexpected (st (ctx .master .write 3 4 0) 0 0x04#8 0 0x04#8 0)) (fun s => (s.regs.sr2, s.trace)) =
    some (0x04#8, [⟨.arm .mTxUnexpected, .diag .mTxUnexpected⟩]) := by decide
/-- V-MT-idle. -/
theorem test_mTxIdle :
    part (exec .mTxIdle (st (ctx .master .write 3 4 0) 0x10#8 0 0 0x04#8 0)) (fun s => (s.regs.sr1, events s)) =
    some (0x10#8, []) := by decide
/-- V-MR-last. -/
theorem test_mRx_last :
    part (exec .mRx (st (ctx .master .read 2 4 1) 0x40#8 0 0x03#8 0x04#8 0x22#8))
      (fun s => (s.ctx.cursor, s.ctx.role, s.mem.read 0x1001, events s)) =
    some (2, .slave, some 0x22#8, [.regRd .dr 0x22#8, .memWr 0x1001 0x22#8, .regWr .cr2 0x00#8, .ackSet false,
      .regWr .cr2 0x02#8, .stopReq, .cbMasterReadDone 0x1000 2]) := by decide
/-- V-MR-0. -/
theorem test_mRx_zero :
    part (exec .mRx (st (ctx .master .read 0 4 0) 0x40#8 0 0x03#8 0x04#8 0x99#8))
      (fun s => (s.ctx.cursor, s.ctx.role, events s)) =
    some (1, .slave, [.regRd .dr 0x99#8, .regWr .cr2 0x04#8, .ackSet true]) := by decide
/-- V-MR-idle. -/
theorem test_mRxIdle :
    part (exec .mRxIdle (st (ctx .master .read 2 4 0) 0 0x08#8 0 0x04#8 0)) (fun s => (s.regs.sr2, events s, s.eng)) =
    some (0x08#8, [], .epiErr) := by decide

/-! ### Slave branch (95_test_vectors.md 2.5) -/

/-- V-SA-rx. -/
theorem test_sAddr :
    part (exec .sAddr (st (ctx .slave .write 3 4 3) 0x02#8 0 0x02#8 0 0))
      (fun s => (s.regs.addr, s.ctx.cursor, events s)) =
    some (false, 0, [.regRd .sr1 0x02#8, .regRd .sr3 0x02#8, .regWr .cr2 0x04#8, .ackSet true]) := by decide
/-- V-SR-full. -/
theorem test_sRx_full :
    part (exec .sRx (st (ctx .slave .write 3 4 3) 0x40#8 0 0x02#8 0x04#8 0xB4#8))
      (fun s => (s.ctx.cursor, s.regs.rxne, events s)) =
    some (4, false, [.regRd .dr 0xB4#8, .memWr 0x2003 0xB4#8, .cbSlaveReceiveDone 0x2000 4]) := by decide
/-- V-SR-over. -/
theorem test_sRx_over :
    part (exec .sRx (st (ctx .slave .write 3 4 4) 0x40#8 0 0x02#8 0x04#8 0xB5#8))
      (fun s => (s.ctx.cursor, s.regs.cr2, events s)) = some (4, 0x04#8, [.regRd .dr 0xB5#8]) := by decide
/-- V-ST-last. -/
theorem test_sTx_last :
    part (exec .sTx (st (ctx .slave .write 3 4 3) 0x80#8 0 0x06#8 0x04#8 0))
      (fun s => (s.ctx.cursor, events s)) =
    some (4, [.memRd 0x2003 0xC4#8, .regWr .dr 0xC4#8, .cbSlaveTransmitDone 0x2000 4]) := by decide
/-- V-ST-fill. -/
theorem test_sTx_fill :
    part (exec .sTx (st (ctx .slave .write 3 4 4) 0x80#8 0 0x06#8 0x04#8 0x33#8))
      (fun s => (s.ctx.cursor, s.regs.dr, s.regs.txe, events s)) =
    some (4, 0x00#8, false, [.regWr .dr 0x00#8]) := by decide
/-- V-SI-SB. -/
theorem test_sIdle :
    part (exec .sIdle (st (ctx .slave .write 3 4 0) 0x01#8 0 0 0x04#8 0)) (fun s => (s.regs.sr1, events s)) =
    some (0x01#8, []) := by decide

/-! ### Epilogue (95_test_vectors.md 2.6) -/

/-- V-E-all. -/
theorem test_epiErr_all :
    part (exec (.epiErr 0xF#4) (st (ctx .master .write 3 4 0) 0 0x0F#8 0 0x04#8 0))
      (fun s => (s.regs.sr2, s.ctx.role, events s)) =
    some (0x00#8, .master, [.regWr .sr2 0x0E#8, .regWr .sr2 0x0D#8, .regWr .sr2 0x0B#8, .regWr .sr2 0x07#8,
      .regWr .cr2 0x06#8, .stopReq, .cbError 0xF#4]) := by decide
/-- V-E-multi. -/
theorem test_epiErr_slave :
    part (exec (.epiErr 0x9#4) (st (ctx .slave .write 3 4 0) 0 0x09#8 0 0x04#8 0)) (fun s => (s.regs.sr2, events s)) =
    some (0x00#8, [.regWr .sr2 0x0E#8, .regWr .sr2 0x07#8, .cbError 0x9#4]) := by decide
/-- V-E-stop, after the phase's `SR1` read. -/
theorem test_epiStop :
    part (exec .epiStop ((st (ctx .slave .write 3 4 0) 0x10#8 0 0 0x06#8 0).afterRead .epiStop .sr1))
      (fun s => (s.regs.sr1, s.regs.cr2, s.eng, events s)) =
    some (0x00#8, 0x06#8, .idle, [.regRd .sr1 0x10#8, .regRd .cr2 0x06#8, .regWr .cr2 0x06#8]) := by decide

/-! ### Environment moves (95_test_vectors.md 2.8, 44_bus_environment.md R191) -/

/-- V-N-start and V-N-rep. -/
theorem test_env_startdone :
    part (exec .envStartdone (st (ctx .master .write 3 4 0) 0 0 0 0x05#8 0))
      (fun s => (s.regs.cr2, s.regs.sr1, s.regs.sr3, events s)) =
    some (0x04#8, 0x01#8, 0x03#8, [.wire .start]) := by decide
theorem test_env_repstart :
    part (exec .envStartdone (st (ctx .master .write 3 4 0) 0 0 0x03#8 0x05#8 0)) events =
    some [.wire .repStart] := by decide
/-- V-N-aw and V-N-ar. -/
theorem test_env_addrack_write :
    part (exec .envAddrack { st (ctx .master .write 3 4 0) 0 0 0x03#8 0x04#8 0xA0#8 with
      env := ⟨0xA0#8, .sent, none, false, none, true, none⟩ }) (fun s => (s.regs.sr1, s.regs.sr3)) = some (0x82#8, 0x07#8) := by
  decide
theorem test_env_addrack_read :
    part (exec .envAddrack { st (ctx .master .read 3 4 0) 0 0 0x03#8 0x04#8 0xA1#8 with
      env := ⟨0xA1#8, .sent, none, false, none, true, none⟩ }) (fun s => (s.regs.sr1, s.regs.sr3, s.env.addrPhase)) =
    some (0x02#8, 0x03#8, .acked) := by decide
theorem test_env_addrnack :
    part (exec .envAddrnack (st (ctx .master .write 3 4 0) 0 0 0x03#8 0x04#8 0)) (fun s => (s.regs.sr2, events s)) =
    some (0x04#8, [.wire .addrNack]) := by decide
theorem test_env_txack :
    part (exec .envTxack (st (ctx .master .write 3 4 1) 0 0 0x07#8 0x04#8 0x10#8)) (fun s => (s.regs.sr1, events s)) =
    some (0x80#8, [.wire (.byte 0x10#8 true)]) := by decide
theorem test_env_txnack :
    part (exec .envTxnack (st (ctx .slave .write 3 4 4) 0 0 0x06#8 0x04#8 0)) (fun s => (s.regs.sr2, events s)) =
    some (0x04#8, [.wire (.byte 0x00#8 false)]) := by decide
/-- V-N-rx and V-N-ovr. -/
theorem test_env_rxbyte :
    part (exec (.envRxbyte 0x33#8) (st (ctx .master .read 3 4 1) 0 0 0x03#8 0 0))
      (fun s => (s.regs.dr, s.regs.sr1, events s)) =
    some (0x33#8, 0x40#8, [.wire (.byte 0x33#8 false)]) := by decide
theorem test_env_overrun :
    part (exec (.envRxbyte 0x22#8) (st (ctx .master .read 3 4 1) 0x40#8 0 0x03#8 0x04#8 0x11#8))
      (fun s => (s.regVal .dr, s.regs.sr2, s.regs.rxne)) = some (0x22#8, 0x08#8, true) := by decide
/-- V-N-stop. -/
theorem test_env_stopdone :
    part (exec (.envStopdone true) (st (ctx .slave .write 3 4 3) 0 0 0x07#8 0x06#8 0))
      (fun s => (s.regs.cr2, s.regs.sr3, s.regs.sr1)) = some (0x04#8, 0x00#8, 0x10#8) := by decide
theorem test_env_busstart :
    part (exec .envBusstart (st (ctx .slave .write 3 4 0) 0 0 0 0x04#8 0)) (fun s => (s.regs.sr3, events s)) =
    some (0x02#8, [.wire .extStart]) := by decide
/-- P5, line 2. -/
theorem test_env_match :
    part (exec (.envMatch true) (st (ctx .slave .write 3 4 0) 0 0 0x02#8 0x04#8 0))
      (fun s => (s.regs.sr1, s.regs.sr3, events s)) = some (0x82#8, 0x06#8, [.wire (.addrMatch true)]) := by decide
/-- P3, line 14. -/
theorem test_env_peerstop :
    part (exec .envPeerstop (st (ctx .slave .write 3 4 4) 0 0 0x02#8 0x04#8 0))
      (fun s => (s.regs.sr1, s.regs.sr3, events s)) = some (0x10#8, 0x00#8, [.wire .extStop]) := by decide
/-- V-N-arlo. -/
theorem test_env_err_arlo :
    part (exec (.envErr .arlo) (st (ctx .master .write 3 4 1) 0 0 0x07#8 0x04#8 0))
      (fun s => (s.regs.sr2, s.regs.sr3, s.ctx.role)) = some (0x02#8, 0x06#8, .master) := by decide
theorem test_env_err_ovr :
    part (exec (.envErr .ovr) (st (ctx .master .write 3 4 1) 0 0 0x07#8 0x04#8 0)) (fun s => (s.regs.sr2, s.regs.sr3)) =
    some (0x08#8, 0x07#8) := by decide

/-! ### Faults, refusals, stuck (95_test_vectors.md 2.7) -/

/-- V-F-wrap. -/
theorem test_fault_wrap :
    part (exec .mTx (st { ctx .master .write 2 4 1 with masterBuffer := some 0xFFFF } 0x80#8 0 0 0 0)) (·.fault) =
    some (some .addressWrap) := by decide
/-- V-F-unw. -/
theorem test_fault_unwritten :
    part (exec .mStart (st { ctx .master .write 2 4 1 with peerAddress := none } 0x01#8 0 0 0 0))
      (fun s => (s.fault, s.eng)) = some (some .unwrittenRead, .idle) := by decide
theorem test_fault_halts :
    faultOf (step { s0 with fault := some .addressWrap, turns := [.engine] }) = some (.halted .addressWrap) := by decide
/-- V-S-stuck. -/
theorem test_stuck :
    faultOf (exec .sRx (st (ctx .slave .write 2 8 4) 0x40#8 0 0 0 0)) = some .stuck := by decide
/-- V-R-op. -/
theorem test_refused_op :
    part (step { s0 with turns := [.command ⟨0b1001#4, 0, 0, 0⟩] }) (fun s => (s.refusals, { s with refusals := [] })) =
    some ([.reservedCommand 0b1001#4], s0) := rfl
/-- V-R-cb. -/
theorem test_refused_callback :
    part (step { s0 with turns := [.callback (.command ⟨0b0100#4, 0x50, 0x1000, 3⟩)] }) (fun s => (s.refusals, s.ctx)) =
    some ([.callbackReentry], s0.ctx) := by decide

/-- 60_exceptions.md R226: a body that changes the context or touches a register, and one that does neither. -/
theorem test_callback_bodies :
    [CallbackBody.changeContext, .touchRegister .dr, .plain].map
      (fun b => part (step (s0.load [.callback b])) (fun s => s.refusals)) =
    [some [.callbackReentry], some [.callbackReentry], some []] := by decide

/-! ### Steps -/

/-- Line 3 of P1, phase `Branch`: the dispatch read, then the arm's own `SR1` read. -/
theorem test_step_dispatch :
    part (step { st (ctx .master .write 3 4 0) 0x01#8 0 0x03#8 0x04#8 0 with eng := .branch, turns := [.engine] })
      (fun s => (s.eng, s.trace)) =
    some (.epiErr, [⟨.dispatch, .regRd .sr1 0x01#8⟩, ⟨.arm .mStart, .regRd .sr1 0x01#8⟩,
      ⟨.arm .mStart, .regWr .dr 0xA0#8⟩]) := by decide
/-- Service entry where `TXE` is pending (60_exceptions.md R220). -/
theorem test_step_entry :
    part (step { s0 with regs := { s0.regs with cr1 := 1#8, itr := 7#8, sr1 := 0x80#8 }, turns := [.engine] })
      (fun s => (s.eng, events s)) = some (.branch, []) := by decide
/-- An epilogue phase with nothing to do only reads and moves on (43_epilogue.md R186). -/
theorem test_step_epilogue_quiet :
    part (step { s0 with eng := .epiErr }) (fun s => (s.eng, events s)) = some (.epiStop, [.regRd .sr2 0x00#8]) := by
  decide
/-- A caller's turn waits while a service step runs (60_exceptions.md R220). -/
theorem test_step_preempted :
    part (step { s0 with eng := .epiStop, turns := [.command ⟨0b0001#4, 0, 0, 0⟩] }) (fun s => (s.eng, s.turns)) =
    some (.idle, [.command ⟨0b0001#4, 0, 0, 0⟩]) := by decide
/-- At reset nothing is pending and no command is due, so a step changes nothing (70_reset_and_hazards.md R241). -/
theorem test_step_reset_idle : step State.reset = .next State.reset := rfl
theorem test_fetch_word_runs :
    part (step (s0.withFetchWord 8 0x01)) (fun s => s.regs.cr1) = some 0x01#8 := by decide
theorem test_fetch_word_dispatch :
    part (step (s0.withFetchWord 8 0x60)) (fun s => (s.eng, events s)) = some (.epiErr, [.regRd .sr1 0x00#8]) := by
  decide

/-! ### Programs, several buses and the environment's guards -/

/-- 30_encoding.md R93: `ENV RXBYTE 0x5A`. -/
theorem test_read_line_env :
    readLine [] ['E', 'N', 'V', ' ', 'R', 'X', 'B', 'Y', 'T', 'E', ' ', '0', 'x', '5', 'A'] =
    some (.env (.rxbyte 0x5A#8)) := by decide
/-- P1, line 1: `ARM_WRITE 0x50, B, 3`. -/
theorem test_read_line_arm :
    readLine [(['B'], 0x1000)]
      ['A', 'R', 'M', '_', 'W', 'R', 'I', 'T', 'E', ' ', '0', 'x', '5', '0', ',', ' ', 'B', ',', ' ', '3'] =
    some (.cmd ⟨0b0100#4, 0x50, 0x1000, 3⟩) := by decide
theorem test_pseudo_arm : pseudoArm .read 0x50 0x1000 2 = pseudoRead 0x50 0x1000 2 := by decide
/-- A service step on one bus keeps the processor from the other (60_exceptions.md R233). -/
theorem test_buses_exclusive :
    (stepBus [{ s0 with eng := .epiErr }, { s0 with turns := [.command ⟨1#4, 0, 0, 0⟩] }] 1).isNone = true := by decide
/-- 70_reset_and_hazards.md R258: a byte delivered with `ACK = 0`, then `ERR BERR`; no further byte conforms. -/
theorem test_guard_after_nack :
    let g := { st (ctx .master .read 2 4 1) 0 0 0x03#8 0 0 with env := ⟨0xA1#8, .acked, none, false, none, true, none⟩ }
    (envGuard (.rxbyte 0x22#8) g,
      (part (exec (.envRxbyte 0x22#8) g) fun t =>
        part (exec (.envErr .berr) t) fun u => envGuard (.rxbyte 0x33#8) u)) = (true, some (some false)) := by decide
/-- 44_bus_environment.md R194: `MATCH` conforms for the address in `OAR` only. -/
theorem test_guard_match :
    [some 0x21#7, some 0x20#7, none].map (fun a =>
      envGuard (.matched 0#1) (State.sendAddress { st (ctx .slave .write 3 4 0) 0 0 0x02#8 0x04#8 0 with
        regs := { s0.regs with sr3 := 0x02#8, oar := 0x40#8 }
        env := ⟨0#8, .none, none, true, none, true, none⟩ } a)) = [false, true, true] := by decide
/-- A conforming environment answers no Start that was not requested. -/
theorem test_guard_start :
    (envGuard .startdone (st (ctx .master .write 3 4 0) 0 0 0 0x05#8 0),
      envGuard .startdone (st (ctx .master .write 3 4 0) 0 0 0 0x04#8 0)) = (true, false) := by decide

/-! ### Witnesses: the hypotheses of each obligation, met together, clause by clause -/

/-- A master state in a transfer of `n` bytes with the cursor at `c`. -/
def ms (d : Direction) (n c : Nat) (sr1 : Byte) : State := st (ctx .master d n 4 c) sr1 0 0x03#8 0x04#8 0x5A#8

/-- A slave state of capacity 4 with the cursor at `c`. -/
def sl (c : Nat) (sr1 : Byte) : State := st (ctx .slave .write 3 4 c) sr1 0 0x02#8 0x04#8 0x5A#8

/-- The engine has the turn, in a phase. -/
def eng (e : EngPhase) (s : State) : State := { s with eng := e, turns := [.engine] }

/-- The caller issues a command word. -/
def cmd (w : CmdWord) (s : State) : State := { s with turns := [.command w] }

theorem witness_DecodeEncode :
    [Instr.init, .cfgSlave 0x7F#7 0xFFFF 255, .armWrite 0#7 0 0, .armRead 0x7F#7 0xFFFF 255, .mTx, .sIdle, .epiErr 1#4,
      .epiErr 15#4, .epiStop, .envRxbyte 0xFF#8, .envErr .ovr].all (fun i => i.wellFormed cfg) = true := by decide
theorem witness_DecodeSpecWords : 8 ≤ cfg.lenBits ∧ 16 ≤ cfg.addrBits := by decide
/-- The largest operands that fit. -/
theorem witness_CommandDecoding_fits : 0x7F < 0x80 ∧ 0xFFFF < 2 ^ cfg.addrBits ∧ 255 < 2 ^ cfg.lenBits := by decide
/-- The smallest operands that do not, one field at a time. -/
theorem witness_CommandDecoding_wide :
    ¬ (0x80 < 0x80) ∧ ¬ (0x10000 < 2 ^ cfg.addrBits) ∧ ¬ (256 < 2 ^ cfg.lenBits) ∧
      (0b0010#4 = 0b0010#4 ∨ 0b0010#4 &&& 0b1110#4 = 0b0100#4) ∧
      (0b0101#4 = 0b0010#4 ∨ 0b0101#4 &&& 0b1110#4 = 0b0100#4) := by decide
/-- The opcodes beside those of the four commands. -/
theorem witness_CommandDecoding_reserved :
    [0b0000#4, 0b0011#4, 0b0110#4, 0b1111#4].all
      (fun op => op != 0b0001#4 && op != 0b0010#4 && op &&& 0b1110#4 != 0b0100#4) = true := by decide
theorem witness_StepRunsDecoded_code :
    ∃ c s' i, fetch (eng .branch (ms .write 3 1 0x80#8)) = .code c s' ∧ decode s'.cfg c = .ok i ∧
      (eng .branch (ms .write 3 1 0x80#8)).fault = none := ⟨_, _, _, rfl, rfl, rfl⟩
theorem witness_StepRunsDecoded_resume :
    ∃ i s', fetch { ms .write 3 0 0 with call := .armWait, turns := [.caller] } = .resume i s' := ⟨_, _, rfl⟩
theorem witness_StepRunsDecoded_quiet : ∃ o, fetch State.reset = .quiet o ∧ State.reset.fault = none := ⟨_, rfl, rfl⟩
theorem witness_StepRunsDecoded_env :
    ({ s0 with turns := [.env .busstart] } : State).turns = .env .busstart :: [] := by decide
theorem witness_StepRunsDecoded_command :
    let s := cmd ⟨1#4, 0, 0, 0⟩ s0
    s.turns = .command ⟨1#4, 0, 0, 0⟩ :: [] ∧ s.eng = .idle ∧ s.call = .ready ∧ s.fault = none := by decide
theorem witness_StepRunsDecoded_engine :
    let s := eng .branch (ms .read 3 1 0x40#8)
    s.turns = .engine :: [] ∧ s.eng = .branch ∧ s.ctx.direction = some .read ∧ s.fault = none := by decide
theorem witness_StepRunsDecoded_slave :
    let s := eng .branch { s0 with regs := { s0.regs with sr1 := 0x10#8 } }
    s.turns = .engine :: [] ∧ s.eng = .branch ∧ s.ctx.role = .slave ∧ s.ctx.direction = none ∧ s.fault = none := by decide
theorem witness_StepRunsDecoded_unwritten :
    let s := eng .branch { s0 with ctx := { s0.ctx with role := .master } }
    s.turns = .engine :: [] ∧ s.eng = .branch ∧ s.ctx.role = .master ∧ s.ctx.direction = none ∧ s.fault = none := by
  decide
theorem witness_RefusalsMarkOnly_opcode :
    let s := cmd ⟨0b0011#4, 0, 0, 0⟩ s0
    s.fault = none ∧ s.eng = .idle ∧ s.call = .ready ∧ s.turns = .command ⟨0b0011#4, 0, 0, 0⟩ :: [] ∧
      decode s.cfg (.cmd ⟨0b0011#4, 0, 0, 0⟩) = .error (.reservedCommand 0b0011#4) := ⟨rfl, rfl, rfl, rfl, rfl⟩
theorem witness_RefusalsMarkOnly_width :
    let s := cmd ⟨0b0010#4, 0x80, 0, 0⟩ s0
    s.fault = none ∧ s.eng = .idle ∧ s.call = .ready ∧ s.turns = .command ⟨0b0010#4, 0x80, 0, 0⟩ :: [] ∧
      decode s.cfg (.cmd ⟨0b0010#4, 0x80, 0, 0⟩) = .error .operandWidth := ⟨rfl, rfl, rfl, rfl, rfl⟩
theorem witness_RefusalsMarkOnly_callback :
    let s := { s0 with turns := [.callback (.touchRegister .cr2), .callback .plain] }
    s.fault = none ∧ s.turns = .callback (.touchRegister .cr2) :: [.callback .plain] ∧
      CallbackBody.touchRegister .cr2 ≠ .plain := by decide
theorem witness_RefusalsMarkOnly_kept :
    ∃ t, step { cmd ⟨0b0011#4, 0, 0, 0⟩ s0 with refusals := [.operandWidth] } = .next t ∧
      t.refusals = [.operandWidth, .reservedCommand 0b0011#4] := ⟨_, rfl, by decide⟩
theorem witness_ServiceEntry_pending :
    let s := eng .idle { s0 with regs := { s0.regs with cr1 := 1#8, itr := 7#8, sr1 := 0x80#8 } }
    s.fault = none ∧ s.turns = .engine :: [] ∧ s.eng = .idle ∧ s.regs.pending = true := by decide
theorem witness_ServiceEntry_quiet :
    let s := eng .idle s0
    s.fault = none ∧ s.turns = .engine :: [] ∧ s.eng = .idle ∧ s.regs.pending = false := by decide
theorem witness_ServiceEntry_entered :
    ∃ t, step { s0 with regs := { s0.regs with cr1 := 1#8, itr := 7#8, sr1 := 0x80#8 } } = .next t ∧
      s0.eng ≠ .branch ∧ t.eng = .branch := ⟨_, rfl, by decide, by decide⟩
/-- A run in which a service step is pending at first: entry, `S_TX` with the filler, the epilogue, and then nothing. -/
def served : Nat → State
  | 0 => { s0 with regs := { s0.regs with cr1 := 1#8, itr := 7#8, sr1 := 0x80#8 } }
  | n + 1 => if n < 4 then (part (step (served n)) id).getD s0 else served n
theorem witness_ServiceEntry_run : ClosedRun served ∧ (served 0).awaitsService = true := by
  refine ⟨fun n => ?_, by decide⟩
  match n with
  | 0 | 1 | 2 | 3 => rfl
  | n + 4 =>
    have h : ∀ k, served (k + 4) = served 4 := fun k => by
      induction k with
      | zero => rfl
      | succ k ih => rw [← ih]; exact if_neg (by omega)
    rw [h n, show n + 4 + 1 = (n + 1) + 4 by omega, h (n + 1)]
    rfl
theorem witness_ServiceOrder_branch :
    ∃ t, step (eng .branch (sl 0 0x40#8)) = .next t ∧ (eng .branch (sl 0 0x40#8)).eng ≠ .idle ∧ t.eng = .epiErr :=
  ⟨_, rfl, by decide, by decide⟩
theorem witness_ServiceOrder_epiErr :
    ∃ t, step (eng .epiErr (sl 0 0)) = .next t ∧ (eng .epiErr (sl 0 0)).eng ≠ .idle ∧ t.eng = .epiStop :=
  ⟨_, rfl, by decide, by decide⟩
theorem witness_ServiceOrder_epiStop :
    ∃ t, step (eng .epiStop (sl 0 0x10#8)) = .next t ∧ (eng .epiStop (sl 0 0x10#8)).eng ≠ .idle ∧ t.eng = .idle :=
  ⟨_, rfl, by decide, by decide⟩
theorem witness_ServiceOrder_caller :
    [Turn.caller, .command ⟨1#4, 0, 0, 0⟩, .store 0x1000 1#8].all (fun u =>
      (part (step { sl 0 0 with eng := .epiErr, turns := [u] }) (·.turns)) == some [u]) = true := by decide
theorem witness_FaultIsFinal_step : ({ s0 with fault := some .addressWrap } : State).fault = some .addressWrap := rfl
theorem witness_FaultIsFinal_exec :
    ∃ t, exec .mTx { ms .write 2 1 0x80#8 with fault := some .unwrittenRead } = .next t ∧
      t.fault = some .unwrittenRead := ⟨_, rfl, by decide⟩
theorem witness_ArmRecords : s0.call = .ready := rfl
theorem witness_ArmSpins :
    let s := { ms .read 2 0 0 with call := .armWait }
    s.call = .armWait ∧ (Instr.armRead 0x50#7 0x1000 2 = .armWrite 0x50#7 0x1000 2 ∧ Command.armRead = .armWrite ∨
      Instr.armRead 0x50#7 0x1000 2 = .armRead 0x50#7 0x1000 2 ∧ Command.armRead = .armRead) := by decide
theorem witness_ArmIssues :
    let s := { ms .write 2 0 0 with call := .armIssue }
    s.call = .armIssue ∧ (Instr.armWrite 0x50#7 0x1000 2 = .armWrite 0x50#7 0x1000 2 ∧ Command.armWrite = .armWrite ∨
      Instr.armWrite 0x50#7 0x1000 2 = .armRead 0x50#7 0x1000 2 ∧ Command.armWrite = .armRead) := by decide
theorem witness_MStartResult :
    let s := ms .read 2 0 0x01#8
    s.regs.sb = true ∧ s.ctx.peerAddress = some 0x50#7 ∧ s.ctx.direction = some .read := by decide
theorem witness_MStartResult_unwritten :
    let s := { s0 with regs := { s0.regs with sr1 := 0x01#8 } }
    s.regs.sb = true ∧ (s.ctx.peerAddress = none ∨ s.ctx.direction = none) ∧ s.fault = none := by decide
/-- Two bytes are still to go: the last value of the cursor that continues. -/
theorem witness_MTxContinues :
    let s := ms .write 3 1 0x80#8
    s.ctx.masterBuffer = some 0x1000 ∧ s.ctx.masterLength = some 3 ∧ s.ctx.cursor < 3 ∧
      s.hasAddr (0x1000 + s.ctx.cursor) = true ∧ (s.ctx.cursor + 1) % 2 ^ s.cfg.lenBits ≠ 3 := by decide
theorem witness_MTxCompletes :
    let s := ms .write 3 2 0x80#8
    s.ctx.masterBuffer = some 0x1000 ∧ s.ctx.masterLength = some 3 ∧ s.ctx.cursor + 1 = 3 ∧ 3 < 2 ^ s.cfg.lenBits ∧
      s.hasAddr (0x1000 + s.ctx.cursor) = true := by decide
theorem witness_MTxNoByte :
    let s := ms .write 0 0 0x80#8
    s.ctx.masterBuffer = some 0x1000 ∧ s.ctx.masterLength = some 0 ∧ s.ctx.cursor = 0 := by decide
theorem witness_MTxNoByte_beyond :
    let s := ms .write 2 3 0x80#8
    s.ctx.masterBuffer = some 0x1000 ∧ s.ctx.masterLength = some 2 ∧ 2 < s.ctx.cursor := by decide
theorem witness_MRxContinues :
    let s := ms .read 3 1 0x40#8
    s.ctx.masterBuffer = some 0x1000 ∧ s.ctx.masterLength = some 3 ∧ s.ctx.cursor < 3 ∧
      s.ctx.cursor ≠ (3 + (2 ^ s.cfg.lenBits - 1)) % 2 ^ s.cfg.lenBits ∧
      s.hasAddr (0x1000 + s.ctx.cursor) = true := by decide
theorem witness_MRxCompletes :
    let s := ms .read 3 2 0x40#8
    s.ctx.masterBuffer = some 0x1000 ∧ s.ctx.masterLength = some 3 ∧ s.ctx.cursor + 1 = 3 ∧ 3 < 2 ^ s.cfg.lenBits ∧
      s.hasAddr (0x1000 + s.ctx.cursor) = true := by decide
theorem witness_MRxStoresNothing :
    let s := ms .read 2 2 0x40#8
    s.ctx.masterLength = some 2 ∧ 2 ≤ s.ctx.cursor ∧
      s.ctx.cursor ≠ (2 + (2 ^ s.cfg.lenBits - 1)) % 2 ^ s.cfg.lenBits := by decide
/-- A read of length 0. -/
theorem witness_MRxStoresNothing_zero :
    let s := ms .read 0 0 0x40#8
    s.ctx.masterLength = some 0 ∧ 0 ≤ s.ctx.cursor ∧
      s.ctx.cursor ≠ (0 + (2 ^ s.cfg.lenBits - 1)) % 2 ^ s.cfg.lenBits := by decide
theorem witness_MRxStoresNothing_wrap :
    let s := ms .read 0 255 0x40#8
    s.ctx.masterLength = some 0 ∧ 0 ≤ s.ctx.cursor ∧ s.ctx.masterBuffer = some 0x1000 ∧
      s.ctx.cursor = (0 + (2 ^ s.cfg.lenBits - 1)) % 2 ^ s.cfg.lenBits := by decide
/-- For `SRxStores` and `STxSends`: the first byte and the byte that fills the buffer. -/
theorem witness_SRxStores :
    [0, 3].all (fun c => let s := sl c 0x40#8
      decide (s.ctx.slaveBuffer = some 0x2000 ∧ s.ctx.cursor < s.ctx.slaveLength ∧
        s.ctx.slaveLength < 2 ^ s.cfg.lenBits ∧ s.hasAddr (0x2000 + s.ctx.cursor) = true)) = true := by decide
theorem witness_STxSends :
    [0, 3].all (fun c => let s := sl c 0x80#8
      decide (s.ctx.slaveBuffer = some 0x2000 ∧ s.ctx.cursor < s.ctx.slaveLength ∧
        s.ctx.slaveLength < 2 ^ s.cfg.lenBits ∧ s.hasAddr (0x2000 + s.ctx.cursor) = true)) = true := by decide
theorem witness_SRxDiscards : (sl 4 0x40#8).ctx.slaveLength ≤ (sl 4 0x40#8).ctx.cursor := by decide
theorem witness_STxFills : (sl 4 0x80#8).ctx.slaveLength ≤ (sl 4 0x80#8).ctx.cursor := by decide
theorem witness_AddressWrapFaults :
    let s := st { ctx .master .write 2 4 1 with masterBuffer := some 0xFFFF, slaveBuffer := some 0xFFFF } 0 0 0 0 0
    s.fault = none ∧ 2 ^ s.cfg.addrBits ≤ 0xFFFF + s.ctx.cursor ∧ s.ctx.masterBuffer = some 0xFFFF ∧
      s.ctx.masterLength = some 2 ∧ s.ctx.cursor < 2 ∧ s.ctx.slaveBuffer = some 0xFFFF ∧
      s.ctx.cursor < s.ctx.slaveLength := by decide
/-- The first element past the end of both regions. -/
theorem witness_OutsideLaunchStuck :
    let s := st (ctx .master .write 8 8 4) 0 0 0 0 0
    (0x1000 + s.ctx.cursor < 2 ^ s.cfg.addrBits ∧
      (∀ r ∈ s.cfg.launch, 0x1000 + s.ctx.cursor < r.base ∨ r.base + r.size ≤ 0x1000 + s.ctx.cursor) ∧
      s.ctx.masterBuffer = some 0x1000 ∧ s.ctx.masterLength = some 8 ∧ s.ctx.cursor < 8) ∧
    (0x2000 + s.ctx.cursor < 2 ^ s.cfg.addrBits ∧
      (∀ r ∈ s.cfg.launch, 0x2000 + s.ctx.cursor < r.base ∨ r.base + r.size ≤ 0x2000 + s.ctx.cursor) ∧
      s.ctx.slaveBuffer = some 0x2000 ∧ s.ctx.cursor < s.ctx.slaveLength) := by decide
theorem witness_EpiErrPhase :
    let s := eng .epiErr (st (ctx .master .write 3 4 1) 0 0x0F#8 0 0x04#8 0)
    s.fault = none ∧ s.turns = .engine :: [] ∧ s.eng = .epiErr ∧ s.regs.errMask ≠ 0#4 := by decide
theorem witness_EpiErrPhase_quiet :
    let s := eng .epiErr (sl 0 0)
    s.fault = none ∧ s.turns = .engine :: [] ∧ s.eng = .epiErr ∧ s.regs.errMask = 0#4 := by decide
theorem witness_EpiStopPhase :
    [0x10#8, 0x00#8].all (fun v => let s := eng .epiStop (sl 0 v)
      decide (s.fault = none ∧ s.turns = .engine :: [] ∧ s.eng = .epiStop ∧ s.regs.stopf = (v == 0x10#8))) = true := by
  decide
theorem witness_ReceiveMove : (sl 0 0x40#8).regs.rxne = true ∧ (sl 0 0).regs.rxne = false := by decide
theorem witness_ReceiveMove_nack :
    let s := { sl 0 0 with env := ⟨0xA1#8, .acked, none, false, none, false, none⟩ }
    s.env.rxAck = false ∧ s.env.slaveMatch ≠ some false ∧
      ∃ u, exec (.envErr .berr) s = .next u ∧ Instr.envErr .berr ≠ .envAddrack ∧
        (∀ c, Instr.envErr .berr ≠ .envRxbyte c) :=
  ⟨rfl, by decide, _, rfl, by decide, fun _ => (nomatch ·)⟩
theorem witness_MatchAndErrorMoves :
    ErrFlag.arlo ≠ ErrFlag.af ∧ envGuard (.matched 1#1) { s0 with
      regs := { s0.regs with sr3 := 0x02#8, oar := 0x40#8 }
      env := ⟨0#8, .none, none, true, none, true, some 0x20#7⟩ } = true := by decide
theorem witness_RoleWriters_slave :
    ∃ t, exec .mTx (ms .write 3 2 0x80#8) = .next t ∧ t.ctx.role ≠ (ms .write 3 2 0x80#8).ctx.role :=
  ⟨_, rfl, by decide⟩
theorem witness_RoleWriters_master :
    ∃ t, exec (.armRead 0x50#7 0x1000 2) (sl 0 0) = .next t ∧ t.ctx.role ≠ (sl 0 0).ctx.role := ⟨_, rfl, by decide⟩
theorem witness_ConfigurationWriters :
    (∃ t, exec (.armRead 0x50#7 0x1000 2) (sl 0 0) = .next t) ∧ Instr.armRead 0x50#7 0x1000 2 ≠ .init ∧
      (∀ a b n, Instr.armRead 0x50#7 0x1000 2 ≠ .cfgSlave a b n) ∧ s0.regs.pe = false :=
  ⟨⟨_, rfl⟩, by decide, fun _ _ _ => (nomatch ·), by decide⟩
theorem witness_ContextWriters_master :
    ∃ t, exec (.armRead 0x51#7 0x1001 2) (sl 0 0) = .next t ∧ t.ctx.direction ≠ (sl 0 0).ctx.direction ∧
      t.ctx.peerAddress ≠ (sl 0 0).ctx.peerAddress ∧ t.ctx.masterBuffer ≠ (sl 0 0).ctx.masterBuffer ∧
      t.ctx.masterLength ≠ (sl 0 0).ctx.masterLength := ⟨_, rfl, by decide, by decide, by decide, by decide⟩
theorem witness_ContextWriters_slave :
    ∃ t, exec (.cfgSlave 0x20#7 0x2001 3) (sl 0 0) = .next t ∧ t.ctx.slaveBuffer ≠ (sl 0 0).ctx.slaveBuffer ∧
      t.ctx.slaveLength ≠ (sl 0 0).ctx.slaveLength := ⟨_, rfl, by decide, by decide⟩
theorem witness_ContextWriters_cursor :
    ∃ t, exec .sRx (sl 0 0x40#8) = .next t ∧ t.ctx.cursor ≠ (sl 0 0x40#8).ctx.cursor := ⟨_, rfl, by decide⟩
theorem witness_MemoryWriters_master :
    ∃ t, exec .mRx (ms .read 3 1 0x40#8) = .next t ∧ t.byteAt 0x1001 ≠ (ms .read 3 1 0x40#8).byteAt 0x1001 :=
  ⟨_, rfl, by decide⟩
theorem witness_MemoryWriters_slave :
    ∃ t, exec .sRx (sl 3 0x40#8) = .next t ∧ t.byteAt 0x2003 ≠ (sl 3 0x40#8).byteAt 0x2003 := ⟨_, rfl, by decide⟩
/-- For `TraceGrows` and `ParametersFixed`: a step that records something. -/
theorem witness_TraceGrows : ∃ t, step (eng .branch (sl 3 0x40#8)) = .next t ∧ t.trace ≠ [] := ⟨_, rfl, by decide⟩
theorem witness_ParametersFixed : ∃ t, step (cmd ⟨1#4, 0, 0, 0⟩ s0) = .next t ∧ t.regs ≠ s0.regs := ⟨_, rfl, by decide⟩
theorem witness_OnlyEnvironmentSetsFlags :
    ∃ t, exec .mStart (ms .write 3 0 0x11#8) = .next t ∧ (∀ m, Instr.mStart ≠ decodeEnv m) ∧ t.regs.stopf = true :=
  ⟨_, rfl, fun m => by cases m <;> exact (nomatch ·), by decide⟩
/-- `SB` in Slave role with service enabled: `S_IDLE`, `S_TX`, and a phase of the epilogue. -/
theorem witness_SlaveRoleKeepsSb :
    let up := fun (s : State) => { s with regs := { s.regs with cr1 := 1#8, itr := 7#8 } }
    [eng .branch (up (sl 0 0x01#8)), eng .branch (up (sl 0 0x81#8)), eng .epiErr (up (sl 0 0x81#8))].all (fun s =>
      (part (step s) (·.regs.sb)) == some true &&
        decide (s.ctx.role = .slave ∧ s.regs.sb = true ∧ s.regs.pe = true ∧ s.regs.itevten = true ∧ s.eng ≠ .idle)) =
      true := by decide
/-- 42_slave_branch.md R168: `SB` set in Slave role; `S_TX` clears `TXE` alone. -/
theorem test_sTx_keeps_sb :
    part (step (eng .branch (sl 4 0x81#8))) (fun s => (s.regs.sr1, s.regs.dr)) = some (0x01#8, 0x00#8) := by decide
theorem witness_MemoryCanonicalKept :
    (sl 3 0x40#8).mem.wf ∧ ∃ t, step (eng .branch (sl 3 0x40#8)) = .next t ∧ t.mem ≠ (sl 3 0x40#8).mem :=
  ⟨by decide, _, rfl, by decide⟩
/-- For `ContextInvariantKept` and `NoUnwrittenRead`: a master state and a slave state. -/
theorem witness_ContextInvariantKept :
    MasterArmed (eng .branch (ms .read 3 1 0x40#8)) ∧ SlaveConfigured (eng .branch (ms .read 3 1 0x40#8)) ∧
      ∃ t, step (eng .branch (ms .read 3 1 0x40#8)) = .next t ∧ t.ctx.cursor = 2 :=
  ⟨fun _ => ⟨rfl, rfl, rfl, 3, rfl, by decide⟩, fun h => (nomatch h), _, rfl, by decide⟩
theorem witness_NoUnwrittenRead :
    MasterArmed (eng .branch (sl 0 0x40#8)) ∧ SlaveConfigured (eng .branch (sl 0 0x40#8)) ∧
      ∃ t, step (eng .branch (sl 0 0x40#8)) = .next t :=
  ⟨fun h => (nomatch h), fun h => (nomatch h), _, rfl⟩
theorem witness_LatchInvariantKept :
    LatchesUnderFlags { eng .branch (sl 0 0x11#8) with seq := ⟨true, false, true⟩ } ∧
      ∃ t, step { eng .branch (sl 0 0x11#8) with seq := ⟨true, false, true⟩ } = .next t :=
  ⟨⟨fun _ => by decide, fun h => (nomatch h), fun _ => by decide⟩, _, rfl⟩
theorem witness_ReservedBitsKept :
    ReservedZero (eng .branch (sl 0 0xD3#8)).regs ∧ ∃ t, step (eng .branch (sl 0 0xD3#8)) = .next t :=
  ⟨⟨by decide, by decide, by decide, by decide, by decide, by decide, by decide⟩, _, rfl⟩
theorem witness_WidthsKept :
    WidthsFit (cmd ⟨0b0101#4, 0x7F, 0xFFFF, 255⟩ (sl 4 0)) ∧
      ∃ t, step (cmd ⟨0b0101#4, 0x7F, 0xFFFF, 255⟩ (sl 4 0)) = .next t ∧ t.ctx.masterLength = some 255 :=
  ⟨⟨by decide, by decide, fun n h => by cases h; decide, fun b h => by cases h; decide, fun b h => by cases h; decide⟩,
    _, rfl, by decide⟩
/-- One copy in service, the other receiving a move of its environment. -/
theorem witness_OneServiceAtATime :
    let bs := [eng .epiErr (sl 0 0), { s0 with turns := [.env .busstart] }]
    OneInService bs ∧ ∃ bs', stepBus bs 1 = some (.next bs') := by
  refine ⟨?_, _, rfl⟩
  intro i j s t hi hj hs ht
  match i, j with
  | 0, 0 => rfl
  | 1, 1 => rfl
  | 0, 1 => simp at hj; subst hj; exact absurd rfl ht
  | 1, 0 => simp at hi; subst hi; exact absurd rfl hs
  | 0, k + 2 => simp at hj
  | 1, k + 2 => simp at hj
  | k + 2, _ => simp at hi

end Sys2Proof.Tests
end

section
/-!
What holds in every next state a result can answer, over any predicate: one rule for each way the model builds a
result, then the rules for what a turn comes to and for a step.
-/

namespace Sys2Proof.Machine

/-- The result answers only next states where `P` holds; a fault or a refusal answers none. -/
def EveryNext (P : State → Prop) (o : Result) : Prop := ∀ t, o = .next t → P t

section
variable {P : State → Prop} {s : State}

@[simp] theorem everyNext_next : EveryNext P (.next s) ↔ P s := by simp [EveryNext]

theorem everyNext_fault (r : Fault) : EveryNext P (.fault r) := fun _ h => nomatch h

theorem everyNext_raiseFault (r : FaultReason) (hfault : ∀ r', P { s with fault := some r' }) :
    EveryNext P (raiseFault r s) := by
  rw [raiseFault_eq, everyNext_next]
  exact hfault _

theorem everyNext_needField {α : Type} {f : Option α} {k : α → Result}
    (hfault : ∀ r, P { s with fault := some r }) (hk : ∀ v, f = some v → EveryNext P (k v)) :
    EveryNext P (needField f s k) := by
  cases f with
  | none => exact everyNext_raiseFault _ hfault
  | some v => exact hk v rfl

theorem everyNext_atElement {base cursor : Nat} {k : Nat → Result}
    (hfault : ∀ r, P { s with fault := some r })
    (hk : s.hasAddr (base + cursor) = true → EveryNext P (k (base + cursor))) :
    EveryNext P (atElement base cursor s k) := by
  intro t h
  obtain ⟨haddr, h⟩ | ⟨-, rfl⟩ := atElement_next h
  · exact hk haddr t h
  · exact hfault _

theorem everyNext_memRead {tag : Tag} {base cursor : Nat} {k : Byte → State → Result}
    (hfault : ∀ r, P { s with fault := some r })
    (hk : s.hasAddr (base + cursor) = true →
      EveryNext P (k (s.byteAt (base + cursor)) (s.emit tag (.memRd (base + cursor) (s.byteAt (base + cursor)))))) :
    EveryNext P (memRead tag base cursor s k) :=
  everyNext_atElement hfault hk

theorem everyNext_memWrite {tag : Tag} {base cursor : Nat} {v : Byte} {k : State → Result}
    (hfault : ∀ r, P { s with fault := some r })
    (hk : s.hasAddr (base + cursor) = true →
      EveryNext P (k ((s.storeByte (base + cursor) v).emit tag (.memWr (base + cursor) v)))) :
    EveryNext P (memWrite tag base cursor v s k) :=
  everyNext_atElement hfault hk

end

/-- `P` holds of the state a turn goes on from, or in every next state of a turn that selects nothing. -/
def Fetched.Carries (P : State → Prop) : Fetched → Prop
  | .quiet o => EveryNext P o
  | .code _ s => P s
  | .resume _ s => P s

/-- What a turn comes to keeps `P` where every operation keeps it, and every code that selects none. -/
theorem everyNext_run {P : State → Prop} {f : Fetched} (hf : f.Carries P)
    (hexec : ∀ i s, P s → EveryNext P (exec i s)) (hnone : ∀ e s, P s → EveryNext P (notDecoded e s)) :
    EveryNext P (run f) := by
  intro t h
  obtain ⟨o, rfl, h⟩ | ⟨i, s, rfl, h⟩ | ⟨_, s, i, rfl, -, h⟩ | ⟨_, s, e, rfl, -, h⟩ := run_next h
  · exact hf t h
  · exact hexec i s hf t h
  · exact hexec i s hf t h
  · exact hnone e s hf t h

/-- A step keeps `P` where fetching the turn does, every operation does and every code that selects none. -/
theorem everyNext_step {P : State → Prop} {s : State} (hf : (fetch s).Carries P)
    (hexec : ∀ i s, P s → EveryNext P (exec i s)) (hnone : ∀ e s, P s → EveryNext P (notDecoded e s)) :
    EveryNext P (step s) := by
  intro t h
  rw [step_run (fault_none_of_step h)] at h
  exact everyNext_run hf hexec hnone t h

end Sys2Proof.Machine
end

section
/-!
The parameters are fixed (00_scope.md R10): every operation, every code that selects none and every fetch of a turn
answers with the configuration it started from.
-/

namespace Sys2Proof.Machine

/-- The configuration is `c`. -/
def HasCfg (c : Config) (s : State) : Prop := s.cfg = c

@[simp] theorem hasCfg_iff {c : Config} {s : State} : HasCfg c s ↔ s.cfg = c := Iff.rfl

/-! ### Updates -/

@[simp] theorem State.runBody_cfg (s : State) (b : CallbackBody) : (s.runBody b).cfg = s.cfg := by
  unfold State.runBody
  split <;> simp

@[simp] theorem armStep_cfg (d : Direction) (peer : Addr7) (buffer length : Nat) (s : State) :
    (armStep d peer buffer length s).cfg = s.cfg := by
  unfold armStep
  split
  · rfl
  · simp [armSpin]
  · simp [armIssue]

/-! ### The arms that reach a field or a buffer -/

section
variable {c : Config} {s : State}

theorem execMStart_keeps_cfg (h : s.cfg = c) : EveryNext (HasCfg c) (execMStart s) := by
  unfold execMStart
  refine everyNext_needField (by simp [h]) fun peer _ => ?_
  refine everyNext_needField (by simp [h]) fun d _ => ?_
  simp [h]

theorem mTxCompletion_keeps_cfg (length : Nat) (h : s.cfg = c) :
    EveryNext (HasCfg c) (mTxCompletion length s) := by
  unfold mTxCompletion
  split
  · exact everyNext_needField (by simp [h]) fun base _ => by simp [h]
  · simp [h]

theorem execMTx_keeps_cfg (h : s.cfg = c) : EveryNext (HasCfg c) (execMTx s) := by
  unfold execMTx
  refine everyNext_needField (by simp [h]) fun length _ => ?_
  split
  · refine everyNext_needField (by simp [h]) fun base _ => ?_
    exact everyNext_memRead (by simp [h]) fun _ => mTxCompletion_keeps_cfg length (by simp [h])
  · exact mTxCompletion_keeps_cfg length h

theorem mRxCompletion_keeps_cfg (length : Nat) (h : s.cfg = c) :
    EveryNext (HasCfg c) (mRxCompletion length s) := by
  unfold mRxCompletion
  split
  · exact everyNext_needField (by simp [h]) fun base _ => by simp [mRxEnd, h]
  · split <;> simp [mRxEnd, h]

theorem execMRx_keeps_cfg (h : s.cfg = c) : EveryNext (HasCfg c) (execMRx s) := by
  unfold execMRx
  refine everyNext_needField (by simp [h]) fun length _ => ?_
  split
  · refine everyNext_needField (by simp [h]) fun base _ => ?_
    exact everyNext_memWrite (by simp [h]) fun _ => mRxCompletion_keeps_cfg length (by simp [h])
  · exact mRxCompletion_keeps_cfg length (by simp [h])

theorem execSRx_keeps_cfg (h : s.cfg = c) : EveryNext (HasCfg c) (execSRx s) := by
  unfold execSRx
  dsimp only
  split
  · refine everyNext_needField (by simp [h]) fun base _ => ?_
    refine everyNext_memWrite (by simp [h]) fun _ => ?_
    rw [everyNext_next]
    split <;> simp [h]
  · simp [h]

theorem execSTx_keeps_cfg (h : s.cfg = c) : EveryNext (HasCfg c) (execSTx s) := by
  unfold execSTx
  dsimp only
  split
  · refine everyNext_needField (by simp [h]) fun base _ => ?_
    refine everyNext_memRead (by simp [h]) fun _ => ?_
    rw [everyNext_next]
    split <;> simp [h]
  · simp [h]

end

/-! ### Every operation, and a code that selects none -/

theorem exec_keeps_cfg (c : Config) (i : Instr) (s : State) (h : HasCfg c s) : EveryNext (HasCfg c) (exec i s) := by
  rw [hasCfg_iff] at h
  cases i with
  | init => simp [exec, execInit, h]
  | cfgSlave a b n => simp [exec, execCfgSlave, h]
  | armWrite p b n => simp [exec, execArmWrite, h]
  | armRead p b n => simp [exec, execArmRead, h]
  | mStart => exact execMStart_keeps_cfg h
  | mAddr => simp [exec, execMAddr, h]
  | mTx => exact execMTx_keeps_cfg h
  | mTxUnexpected => simp [exec, execMTxUnexpected, h]
  | mTxIdle => simp [exec, execMTxIdle, h]
  | mRx => exact execMRx_keeps_cfg h
  | mRxIdle => simp [exec, execMRxIdle, h]
  | sAddr => simp [exec, execSAddr, h]
  | sRx => exact execSRx_keeps_cfg h
  | sTx => exact execSTx_keeps_cfg h
  | sIdle => simp [exec, execSIdle, h]
  | epiErr e => simp [exec, execEpiErr, h]
  | epiStop => simp [exec, execEpiStop, h]
  | envStartdone => simp [exec, execEnvStartdone, h]
  | envAddrack => simp [exec, execEnvAddrack, h]
  | envAddrnack => simp [exec, execEnvAddrnack, h]
  | envTxack => simp [exec, execEnvTxack, h]
  | envTxnack => simp [exec, execEnvTxnack, h]
  | envRxbyte b => simp [exec, execEnvRxbyte, h]
  | envStopdone f => simp [exec, execEnvStopdone, h]
  | envBusstart => simp [exec, execEnvBusstart, h]
  | envMatch d => simp [exec, execEnvMatch, h]
  | envPeerstop => simp [exec, execEnvPeerstop, h]
  | envErr k => simp [exec, execEnvErr, h]

theorem notDecoded_keeps_cfg (c : Config) (e : DecodeError) (s : State) (h : HasCfg c s) :
    EveryNext (HasCfg c) (notDecoded e s) := by
  rw [hasCfg_iff] at h
  cases e <;> simp [notDecoded, h]

/-! ### Fetching a turn -/

section
variable {c : Config} {s : State}

theorem fetchBranch_keeps_cfg (h : s.cfg = c) : (fetchBranch s).Carries (HasCfg c) := by
  unfold fetchBranch
  dsimp only
  split
  · simp [Fetched.Carries, h]
  · split
    · simp [Fetched.Carries, h]
    · exact everyNext_raiseFault _ (by simp [h])

theorem engineTurn_keeps_cfg (h : s.cfg = c) : (engineTurn s).Carries (HasCfg c) := by
  unfold engineTurn
  cases s.eng with
  | idle =>
    simp only [Fetched.Carries, everyNext_next]
    split <;> simp [h]
  | branch => exact fetchBranch_keeps_cfg h
  | epiErr => simp [Fetched.Carries, h]
  | epiStop => simp [Fetched.Carries, h]

theorem background_keeps_cfg (h : s.cfg = c) : (background s).Carries (HasCfg c) := by
  unfold background
  split
  · exact engineTurn_keeps_cfg h
  · split <;> simp [Fetched.Carries, h]

theorem callerStore_keeps_cfg (a : Nat) (v : Byte) (h : s.cfg = c) : EveryNext (HasCfg c) (callerStore a v s) := by
  unfold callerStore
  split
  · simp [h]
  · exact everyNext_fault _

theorem fetch_keeps_cfg (h : s.cfg = c) : (fetch s).Carries (HasCfg c) := by
  unfold fetch
  cases s.turns with
  | nil => exact background_keeps_cfg h
  | cons turn ts =>
    cases turn with
    | command w =>
      dsimp only
      split
      · exact h
      · exact background_keeps_cfg h
    | caller =>
      dsimp only
      split
      · exact engineTurn_keeps_cfg h
      · split <;> simp [Fetched.Carries, h]
    | store a v =>
      dsimp only
      split
      · exact callerStore_keeps_cfg a v h
      · exact background_keeps_cfg h
    | engine => exact engineTurn_keeps_cfg h
    | env m => exact h
    | called a => simp [Fetched.Carries, h]
    | callback b => simp [Fetched.Carries, h]

end

/-- Settles O49: a step carries the parameters through the fetch of its turn and through the operation it selects. -/
theorem parametersFixed : Obligations.ParametersFixed := by
  unfold Obligations.ParametersFixed
  exact fun s => everyNext_step (fetch_keeps_cfg rfl) (exec_keeps_cfg s.cfg) (notDecoded_keeps_cfg s.cfg)

end Sys2Proof.Machine
end

section
/-!
The register interface, one statement for each part of the registers and every register accessed (10_state.md R41,
R42): what a read and a write leave of `SR1`, `SR2`, `SR3`, of each event flag and of the latches.
-/

namespace Sys2Proof.Machine

section
variable (s : State) (k : Tag) (r : RegName) (v : Byte)

/-! ### The status registers -/

theorem State.writeReg_sr1 :
    (s.writeReg k r v).regs.sr1 = if r = .dr then sr1AfterDr s else if r = .cr2 then sr1AfterCr2 s else s.regs.sr1 := by
  cases r with
  | dr => simp [sr1AfterDr]
  | cr2 => simp [sr1AfterCr2]
  | cr1 | freqr | oar | sr1 | sr2 | sr3 | itr | ccr | triser => rfl

theorem State.writeReg_sr2 :
    (s.writeReg k r v).regs.sr2 = if r = .sr2 then s.regs.sr2 &&& (v &&& 0x0F#8) else s.regs.sr2 := by
  cases r with
  | dr | cr2 => simp
  | cr1 | freqr | oar | sr1 | sr2 | sr3 | itr | ccr | triser => rfl

@[simp] theorem State.writeReg_sr3 : (s.writeReg k r v).regs.sr3 = s.regs.sr3 := by
  cases r with
  | dr | cr2 => simp
  | cr1 | freqr | oar | sr1 | sr2 | sr3 | itr | ccr | triser => rfl

theorem State.afterRead_regs :
    (s.afterRead k r).regs =
      if r = .dr then s.regs.setRxne false
      else if r = .sr3 ∧ s.seq.addrArmed = true then s.regs.setAddr false else s.regs := by
  cases r with
  | sr3 => simp
  | cr1 | cr2 | freqr | oar | dr | sr1 | sr2 | itr | ccr | triser => rfl

/-! ### The event flags -/

theorem State.writeReg_sb :
    (s.writeReg k r v).regs.sb = true ↔ s.regs.sb = true ∧ ¬ (r = .dr ∧ s.seq.sbArmed = true) := by
  rw [Regs.sb, State.writeReg_sr1, sr1AfterDr, sr1AfterCr2, Regs.sb]
  split_ifs <;> simp_all [getElem_putBit]

theorem State.writeReg_stopf :
    (s.writeReg k r v).regs.stopf = true ↔ s.regs.stopf = true ∧ ¬ (r = .cr2 ∧ s.seq.stopArmed = true) := by
  rw [Regs.stopf, State.writeReg_sr1, sr1AfterDr, sr1AfterCr2, Regs.stopf]
  split_ifs <;> simp_all [getElem_putBit]

theorem State.writeReg_txe : (s.writeReg k r v).regs.txe = true ↔ s.regs.txe = true ∧ r ≠ .dr := by
  rw [Regs.txe, State.writeReg_sr1, sr1AfterDr, sr1AfterCr2, Regs.txe]
  split_ifs <;> simp_all [getElem_putBit]

@[simp] theorem State.writeReg_addr : (s.writeReg k r v).regs.addr = s.regs.addr := by
  rw [Regs.addr, State.writeReg_sr1, sr1AfterDr, sr1AfterCr2, Regs.addr]
  split_ifs <;> simp [getElem_putBit]

@[simp] theorem State.writeReg_rxne : (s.writeReg k r v).regs.rxne = s.regs.rxne := by
  rw [Regs.rxne, State.writeReg_sr1, sr1AfterDr, sr1AfterCr2, Regs.rxne]
  split_ifs <;> simp [getElem_putBit]

theorem State.afterRead_addr :
    (s.afterRead k r).regs.addr = true ↔ s.regs.addr = true ∧ ¬ (r = .sr3 ∧ s.seq.addrArmed = true) := by
  rw [State.afterRead_regs]
  split_ifs <;> simp_all

theorem State.afterRead_rxne : (s.afterRead k r).regs.rxne = true ↔ s.regs.rxne = true ∧ r ≠ .dr := by
  rw [State.afterRead_regs]
  split_ifs <;> simp_all

@[simp] theorem State.afterRead_sb : (s.afterRead k r).regs.sb = s.regs.sb := by
  rw [State.afterRead_regs]
  split_ifs <;> simp

@[simp] theorem State.afterRead_stopf : (s.afterRead k r).regs.stopf = s.regs.stopf := by
  rw [State.afterRead_regs]
  split_ifs <;> simp

@[simp] theorem State.afterRead_txe : (s.afterRead k r).regs.txe = s.regs.txe := by
  rw [State.afterRead_regs]
  split_ifs <;> simp

/-! ### The latches -/

theorem State.writeReg_seq :
    (s.writeReg k r v).seq =
      if r = .dr then { s.seq with sbArmed := false }
      else if r = .cr2 then { s.seq with stopArmed := false } else s.seq := by
  cases r with
  | dr | cr2 => simp
  | cr1 | freqr | oar | sr1 | sr2 | sr3 | itr | ccr | triser => rfl

theorem State.afterRead_seq :
    (s.afterRead k r).seq =
      if r = .sr1 then latchesAfterSr1 s else if r = .sr3 then { s.seq with addrArmed := false } else s.seq := by
  cases r with
  | sr3 => simp
  | cr1 | cr2 | freqr | oar | dr | sr1 | sr2 | itr | ccr | triser => rfl

/-! ### The error flags -/

theorem State.writeReg_err (j : ErrFlag) :
    (s.writeReg k r v).regs.err j = (s.regs.err j && (decide (r ≠ .sr2) || v.getLsbD j.index)) := by
  have hmask : (0x0F#8).getLsbD j.index = true := by cases j <;> decide
  rw [Regs.err, State.writeReg_sr2, Regs.err]
  split_ifs with h <;> simp [h, hmask]

@[simp] theorem State.afterRead_err (j : ErrFlag) : (s.afterRead k r).regs.err j = s.regs.err j := by
  rw [State.afterRead_regs]
  split_ifs <;> rfl

@[simp] theorem State.afterRead_sr3 : (s.afterRead k r).regs.sr3 = s.regs.sr3 := by
  rw [State.afterRead_regs]
  split_ifs <;> rfl

end

/-- Settles O11: a write's clears and a read's, flag by flag, and the latch each access changes. -/
theorem eventFlagClears : Obligations.EventFlagClears := by
  unfold Obligations.EventFlagClears
  intro s k r v
  exact ⟨_, _, rfl, rfl, s.writeReg_sb k r v, s.writeReg_stopf k r v, s.writeReg_txe k r v, s.writeReg_addr k r v,
    s.writeReg_rxne k r v, s.writeReg_seq k r v, s.afterRead_addr k r, s.afterRead_rxne k r, s.afterRead_sb k r,
    s.afterRead_stopf k r, s.afterRead_txe k r, s.afterRead_seq k r⟩

/-- Settles O12: what a write leaves of an error flag, at `SR2`. -/
theorem errorFlagClear : Obligations.ErrorFlagClear := by
  unfold Obligations.ErrorFlagClear
  intro s k v j
  rw [State.writeReg_err]
  simp

end Sys2Proof.Machine
end

section
/-!
What an operation is made of. Every operation is a sequence of elementary updates: each answers how the registers,
the latches and the trace can change, and every rule about them is a rule about one update.
-/

namespace Sys2Proof.Machine

/-! ### The elementary updates -/

/-- `i` may write `r` through the register interface: `CR2`, `DR` and `SR2` are free to any operation, `INIT` may write
every register and `CFG_SLAVE` also `OAR` (10_state.md R32 to R42). -/
def MayWrite (i : Instr) (r : RegName) : Prop :=
  r = .cr2 ∨ r = .dr ∨ r = .sr2 ∨ i = .init ∨ (r = .oar ∧ ∃ a b n, i = .cfgSlave a b n)

/-- One change the bus environment makes to the registers (44_bus_environment.md R191). -/
inductive RegMove (g : Regs) : Regs → Prop
  | setFlag (k : Nat) (hk : k < 8) (himpl : (implMask .sr1).getLsbD k = true) :
      RegMove g { g with sr1 := putBit g.sr1 k true }
  | raiseErr (k : ErrFlag) : RegMove g (g.raiseErr k)
  | putSr3 (k : Nat) (b : Bool) (hk : k < 8) (himpl : (implMask .sr3).getLsbD k = true) :
      RegMove g { g with sr3 := putBit g.sr3 k b }
  | clearCr2 (k : Nat) (hk : k < 8) (himpl : (implMask .cr2).getLsbD k = true) :
      RegMove g { g with cr2 := putBit g.cr2 k false }
  | deliver (b : Byte) : RegMove g { g with dr := b, delivered := b }

/-- One elementary update of the operation `i`. -/
inductive Update (i : Instr) (s : State) : State → Prop
  | context (x : Context) : Update i s { s with ctx := x }
  | engine (p : EngPhase) (hp : p ≠ .branch) : Update i s { s with eng := p }
  | caller (p : CallPhase) : Update i s { s with call := p }
  | bus (e : Env) : Update i s { s with env := e }
  | memory (m : Memory) : Update i s { s with mem := m }
  | fault (r : FaultReason) : Update i s { s with fault := some (s.fault.getD r) }
  | emit (k : Tag) (e : Event) : Update i s (s.emit k e)
  | read (k : Tag) (r : RegName) : Update i s (s.afterRead k r)
  | write (k : Tag) (r : RegName) (v : Byte) (hr : MayWrite i r) : Update i s (s.writeReg k r v)
  | send (k : Tag) (v : Byte) : Update i s (s.sendByte k v)
  | move (g : Regs) (henv : ∃ m, i = decodeEnv m) (hg : RegMove s.regs g) : Update i s { s with regs := g }

/-- A sequence of elementary updates of the operation `i`. -/
abbrev Reaches (i : Instr) : State → State → Prop := Relation.ReflTransGen (Update i)

/-- What every update keeps, a sequence of updates keeps. -/
theorem Reaches.keeps {i : Instr} {P : State → Prop} (hP : ∀ u v, Update i u v → P u → P v) {s t : State}
    (h : Reaches i s t) (hs : P s) : P t := by
  induction h with
  | refl => exact hs
  | tail _ huv ih => exact hP _ _ huv ih

/-! ### The model's own updates as sequences -/

section
variable {i : Instr} {s u : State}

theorem Reaches.context (h : Reaches i s u) (x : Context) : Reaches i s { u with ctx := x } := h.tail (.context x)
theorem Reaches.setRole (h : Reaches i s u) (r : Role) : Reaches i s (u.setRole r) := h.context _
theorem Reaches.setCursor (h : Reaches i s u) (v : Nat) : Reaches i s (u.setCursor v) := h.context _
theorem Reaches.incCursor (h : Reaches i s u) : Reaches i s u.incCursor := h.context _
theorem Reaches.setScratch (h : Reaches i s u) (v : Byte) : Reaches i s (u.setScratch v) := h.context _

theorem Reaches.endBranch (h : Reaches i s u) : Reaches i s u.endBranch := h.tail (.engine _ nofun)
theorem Reaches.endEpiErr (h : Reaches i s u) : Reaches i s u.endEpiErr := h.tail (.engine _ nofun)
theorem Reaches.leaveService (h : Reaches i s u) : Reaches i s u.leaveService := h.tail (.engine _ nofun)

theorem Reaches.caller (h : Reaches i s u) (p : CallPhase) : Reaches i s { u with call := p } := h.tail (.caller p)
theorem Reaches.bus (h : Reaches i s u) (e : Env) : Reaches i s { u with env := e } := h.tail (.bus e)
theorem Reaches.storeByte (h : Reaches i s u) (a : Nat) (v : Byte) : Reaches i s (u.storeByte a v) :=
  h.tail (.memory _)

theorem Reaches.emit (h : Reaches i s u) (k : Tag) (e : Event) : Reaches i s (u.emit k e) := h.tail (.emit k e)
theorem Reaches.onWire (h : Reaches i s u) (w : Wire) : Reaches i s (u.onWire w) := (h.bus _).emit _ _

theorem Reaches.afterRead (h : Reaches i s u) (k : Tag) (r : RegName) : Reaches i s (u.afterRead k r) :=
  h.tail (.read k r)
theorem Reaches.readScratch (h : Reaches i s u) (k : Tag) (r : RegName) : Reaches i s (u.readScratch k r) :=
  (h.afterRead k r).setScratch _

theorem Reaches.writeReg (h : Reaches i s u) (k : Tag) (r : RegName) (v : Byte) (hr : MayWrite i r) :
    Reaches i s (u.writeReg k r v) := h.tail (.write k r v hr)
theorem Reaches.setAck (h : Reaches i s u) (k : Tag) (b : Bool) : Reaches i s (u.setAck k b) :=
  (h.writeReg k .cr2 _ (.inl rfl)).emit _ _
theorem Reaches.requestStart (h : Reaches i s u) (k : Tag) : Reaches i s (u.requestStart k) :=
  (h.writeReg k .cr2 _ (.inl rfl)).emit _ _
theorem Reaches.requestStop (h : Reaches i s u) (k : Tag) : Reaches i s (u.requestStop k) :=
  (h.writeReg k .cr2 _ (.inl rfl)).emit _ _
theorem Reaches.writeDr (h : Reaches i s u) (k : Tag) (v : Byte) : Reaches i s (u.writeReg k .dr v) :=
  h.writeReg k .dr v (.inr (.inl rfl))
theorem Reaches.writeSr2 (h : Reaches i s u) (k : Tag) (v : Byte) : Reaches i s (u.writeReg k .sr2 v) :=
  h.writeReg k .sr2 v (.inr (.inr (.inl rfl)))
theorem Reaches.sendByte (h : Reaches i s u) (k : Tag) (v : Byte) : Reaches i s (u.sendByte k v) :=
  h.tail (.send k v)

/-- A field that may be unwritten: the fault, or the rest with its value. -/
theorem Reaches.needField {α : Type} (h : Reaches i s u) {f : Option α} {k : α → Result}
    (hk : ∀ v, EveryNext (Reaches i s) (k v)) : EveryNext (Reaches i s) (needField f u k) := by
  cases f with
  | none => rw [needField_none, raiseFault_eq, everyNext_next]; exact h.tail (.fault _)
  | some v => exact hk v

/-- A buffer element: the fault, or the rest with its address. -/
theorem Reaches.atElement (h : Reaches i s u) {base cursor : Nat} {k : Nat → Result}
    (hk : ∀ a, EveryNext (Reaches i s) (k a)) : EveryNext (Reaches i s) (atElement base cursor u k) := by
  intro t ht
  obtain ⟨-, ht⟩ | ⟨-, rfl⟩ := atElement_next ht
  · exact hk _ t ht
  · exact h.tail (.fault _)

/-! ### The arms that have parts -/

theorem armStep_reaches (d : Direction) (p : Addr7) (b n : Nat) (h : Reaches i s u) :
    Reaches i s (armStep d p b n u) := by
  unfold armStep
  split
  · exact (h.caller .armWait).context _
  · exact (h.readScratch _ _).caller _
  · exact ((h.setAck _ _).requestStart _).caller _

theorem mTxCompletion_reaches (n : Nat) (h : Reaches i s u) : EveryNext (Reaches i s) (mTxCompletion n u) := by
  unfold mTxCompletion
  split
  · refine (h.requestStop _).needField fun base => ?_
    exact everyNext_next.2 ((((h.requestStop _).emit _ _).setRole _).endBranch)
  · exact everyNext_next.2 h.endBranch

theorem execMTx_reaches (h : Reaches i s u) : EveryNext (Reaches i s) (execMTx u) := by
  refine h.needField fun n => ?_
  split
  · refine h.needField fun base => h.atElement fun a => ?_
    exact mTxCompletion_reaches n ((h.emit _ _).writeDr _ _).incCursor
  · exact mTxCompletion_reaches n h

theorem mRxEnd_reaches (h : Reaches i s u) : EveryNext (Reaches i s) (mRxEnd u) :=
  everyNext_next.2 h.incCursor.endBranch

theorem mRxCompletion_reaches (n : Nat) (h : Reaches i s u) : EveryNext (Reaches i s) (mRxCompletion n u) := by
  unfold mRxCompletion
  split
  · have hstop := (h.setAck (.arm .mRx) false).requestStop (.arm .mRx)
    exact hstop.needField fun base => mRxEnd_reaches ((hstop.emit _ _).setRole _)
  · split
    · exact mRxEnd_reaches ((h.setRole _).setAck _ _)
    · exact mRxEnd_reaches h

theorem execMRx_reaches (h : Reaches i s u) : EveryNext (Reaches i s) (execMRx u) := by
  have hread := h.afterRead (.arm .mRx) .dr
  refine hread.needField fun n => ?_
  split
  · refine hread.needField fun base => hread.atElement fun a => ?_
    exact mRxCompletion_reaches n ((hread.storeByte _ _).emit _ _)
  · exact mRxCompletion_reaches n hread

theorem execSRx_reaches (h : Reaches i s u) : EveryNext (Reaches i s) (execSRx u) := by
  have hread := h.afterRead (.arm .sRx) .dr
  unfold execSRx
  dsimp only
  split
  · refine hread.needField fun base => hread.atElement fun a => everyNext_next.2 (Reaches.endBranch ?_)
    have hstored := ((hread.storeByte a (u.regVal .dr)).emit (.arm .sRx) (.memWr a (u.regVal .dr))).incCursor
    split
    · exact hstored.emit _ _
    · exact hstored
  · exact everyNext_next.2 hread.endBranch

theorem execSTx_reaches (h : Reaches i s u) : EveryNext (Reaches i s) (execSTx u) := by
  unfold execSTx
  dsimp only
  split
  · refine h.needField fun base => h.atElement fun a => everyNext_next.2 (Reaches.endBranch ?_)
    have hsent := ((h.emit (.arm .sTx) (.memRd a (u.byteAt a))).sendByte (.arm .sTx) (u.byteAt a)).incCursor
    split
    · exact hsent.emit _ _
    · exact hsent
  · exact everyNext_next.2 (h.sendByte _ _).endBranch

theorem execMStart_reaches (h : Reaches i s u) : EveryNext (Reaches i s) (execMStart u) := by
  have hread := h.readScratch (.arm .mStart) .sr1
  refine hread.needField fun p => hread.needField fun d => ?_
  exact everyNext_next.2 (hread.writeDr _ _).endBranch

theorem clearErr_reaches (e : Nibble) (k : ErrFlag) (h : Reaches i s u) : Reaches i s (u.clearErr e k) := by
  unfold State.clearErr
  split
  · exact h.writeSr2 _ _
  · exact h

theorem stopOnError_reaches (h : Reaches i s u) : Reaches i s u.stopOnError := by
  unfold State.stopOnError
  split
  · exact h.requestStop _
  · exact h

theorem execInit_reaches (h : Reaches .init s u) : EveryNext (Reaches .init s) (execInit u) := by
  have hmay : ∀ r, MayWrite .init r := fun r => .inr (.inr (.inr (.inl rfl)))
  exact everyNext_next.2 (((((((h.writeReg _ _ _ (hmay _)).writeReg _ _ _ (hmay _)).writeReg _ _ _ (hmay _)).writeReg
    _ _ _ (hmay _)).writeReg _ _ _ (hmay _)).writeReg _ _ _ (hmay _)).writeReg _ _ _ (hmay _))

theorem execCfgSlave_reaches (a : Addr7) (b n : Nat) (h : Reaches (.cfgSlave a b n) s u) :
    EveryNext (Reaches (.cfgSlave a b n) s) (execCfgSlave a b n u) := by
  have hmay : MayWrite (.cfgSlave a b n) .oar := .inr (.inr (.inr (.inr ⟨rfl, a, b, n, rfl⟩)))
  exact everyNext_next.2 (((h.writeReg _ _ _ hmay).context _).setAck _ _)

end

/-! ### The environment's moves -/

/-- Changes of the registers by the environment. -/
abbrev RegMoves : Regs → Regs → Prop := Relation.ReflTransGen RegMove

section
variable {i : Instr} {g g' : Regs}

theorem RegMoves.setSb (h : RegMoves g g') : RegMoves g (g'.setSb true) := h.tail (.setFlag 0 (by decide) rfl)
theorem RegMoves.setAddr (h : RegMoves g g') : RegMoves g (g'.setAddr true) := h.tail (.setFlag 1 (by decide) rfl)
theorem RegMoves.setStopf (h : RegMoves g g') : RegMoves g (g'.setStopf true) := h.tail (.setFlag 4 (by decide) rfl)
theorem RegMoves.setRxne (h : RegMoves g g') : RegMoves g (g'.setRxne true) := h.tail (.setFlag 6 (by decide) rfl)
theorem RegMoves.setTxe (h : RegMoves g g') : RegMoves g (g'.setTxe true) := h.tail (.setFlag 7 (by decide) rfl)
theorem RegMoves.raiseErr (h : RegMoves g g') (k : ErrFlag) : RegMoves g (g'.raiseErr k) := h.tail (.raiseErr k)
theorem RegMoves.setMsl (h : RegMoves g g') (b : Bool) : RegMoves g (g'.setMsl b) :=
  h.tail (.putSr3 0 b (by decide) rfl)
theorem RegMoves.setBusy (h : RegMoves g g') (b : Bool) : RegMoves g (g'.setBusy b) :=
  h.tail (.putSr3 1 b (by decide) rfl)
theorem RegMoves.setTra (h : RegMoves g g') (b : Bool) : RegMoves g (g'.setTra b) :=
  h.tail (.putSr3 2 b (by decide) rfl)
theorem RegMoves.clearStart (h : RegMoves g g') : RegMoves g g'.clearStart := h.tail (.clearCr2 0 (by decide) rfl)
theorem RegMoves.clearStop (h : RegMoves g g') : RegMoves g g'.clearStop := h.tail (.clearCr2 1 (by decide) rfl)
theorem RegMoves.deliver (h : RegMoves g g') (b : Byte) : RegMoves g { g' with dr := b, delivered := b } :=
  h.tail (.deliver b)

/-- A move of the environment: its changes of the registers, its own state and the `Wire` event. -/
theorem Reaches.envMove (henv : ∃ m, i = decodeEnv m) {s : State} (hg : RegMoves s.regs g) (e : Env) (w : Wire) :
    EveryNext (Reaches i s) (.next ({ s with regs := g, env := e }.onWire w)) := by
  have hregs : Reaches i s { s with regs := g } := by
    induction hg with
    | refl => exact .refl
    | tail _ hmove ih => exact ih.tail (.move _ henv hmove)
  exact everyNext_next.2 ((hregs.bus e).onWire w)

end

theorem execEnvMove_reaches (m : EnvWord) (s : State) :
    EveryNext (Reaches (decodeEnv m) s) (exec (decodeEnv m) s) := by
  have start : RegMoves s.regs s.regs := .refl
  cases m with
  | startdone => exact .envMove ⟨.startdone, rfl⟩ ((start.clearStart.setSb.setMsl _).setBusy _) _ _
  | addrack =>
    refine .envMove ⟨.addrack, rfl⟩ ?_ _ _
    split
    · exact start.setAddr.setTra _
    · exact (start.setAddr.setTra _).setTxe
  | addrnack => exact .envMove ⟨.addrnack, rfl⟩ (start.raiseErr _) _ _
  | txack => exact .envMove ⟨.txack, rfl⟩ start.setTxe s.env _
  | txnack => exact .envMove ⟨.txnack, rfl⟩ (start.raiseErr _) s.env _
  | rxbyte b =>
    refine .envMove ⟨.rxbyte b, rfl⟩ (.deliver ?_ b) _ _
    split
    · exact start.raiseErr _
    · exact start.setRxne
  | stopdone f =>
    refine .envMove ⟨.stopdone f, rfl⟩ ?_ _ _
    split
    · exact (((start.clearStop.setMsl _).setBusy _).setTra _).setStopf
    · exact ((start.clearStop.setMsl _).setBusy _).setTra _
  | busstart => exact .envMove ⟨.busstart, rfl⟩ (start.setBusy _) _ _
  | matched d =>
    refine .envMove ⟨.matched d, rfl⟩ ?_ _ _
    split
    · exact (start.setAddr.setTra _).setTxe
    · exact start.setAddr.setTra _
  | peerstop => exact .envMove ⟨.peerstop, rfl⟩ ((start.setStopf.setBusy _).setTra _) _ _
  | err k =>
    refine .envMove ⟨.err k, rfl⟩ ?_ s.env _
    split
    · exact (start.raiseErr _).setMsl _
    · exact start.raiseErr _

theorem exec_reaches_of_env {i : Instr} (henv : ∃ m, i = decodeEnv m) (s : State) :
    EveryNext (Reaches i s) (exec i s) := by
  obtain ⟨m, rfl⟩ := henv
  exact execEnvMove_reaches m s

/-! ### Every operation -/

/-- An operation is a sequence of elementary updates. -/
theorem exec_reaches (i : Instr) (s : State) : EveryNext (Reaches i s) (exec i s) := by
  have start : Reaches i s s := .refl
  cases i with
  | init => exact execInit_reaches start
  | cfgSlave a b n => exact execCfgSlave_reaches a b n start
  | armWrite p b n => exact everyNext_next.2 (armStep_reaches .write p b n start)
  | armRead p b n => exact everyNext_next.2 (armStep_reaches .read p b n start)
  | mStart => exact execMStart_reaches start
  | mAddr => exact everyNext_next.2 (((start.readScratch _ _).readScratch _ _).setCursor _).endBranch
  | mTx => exact execMTx_reaches start
  | mTxUnexpected => exact everyNext_next.2 (start.emit _ _).endBranch
  | mTxIdle | mRxIdle | sIdle => exact everyNext_next.2 start.endBranch
  | mRx => exact execMRx_reaches start
  | sAddr =>
    exact everyNext_next.2 ((((start.readScratch _ _).readScratch _ _).setAck _ _).setCursor _).endBranch
  | sRx => exact execSRx_reaches start
  | sTx => exact execSTx_reaches start
  | epiErr e =>
    have hclear := clearErr_reaches e .ovr (clearErr_reaches e .af (clearErr_reaches e .arlo
      (clearErr_reaches e .berr start)))
    exact everyNext_next.2 ((stopOnError_reaches hclear).emit _ _).endEpiErr
  | epiStop => exact everyNext_next.2 ((start.afterRead _ _).writeReg _ .cr2 _ (.inl rfl)).leaveService
  | envStartdone => exact exec_reaches_of_env ⟨.startdone, rfl⟩ s
  | envAddrack => exact exec_reaches_of_env ⟨.addrack, rfl⟩ s
  | envAddrnack => exact exec_reaches_of_env ⟨.addrnack, rfl⟩ s
  | envTxack => exact exec_reaches_of_env ⟨.txack, rfl⟩ s
  | envTxnack => exact exec_reaches_of_env ⟨.txnack, rfl⟩ s
  | envRxbyte b => exact exec_reaches_of_env ⟨.rxbyte b, rfl⟩ s
  | envStopdone f => exact exec_reaches_of_env ⟨.stopdone (.ofBool f), by cases f <;> rfl⟩ s
  | envBusstart => exact exec_reaches_of_env ⟨.busstart, rfl⟩ s
  | envMatch d => exact exec_reaches_of_env ⟨.matched (.ofBool d), by cases d <;> rfl⟩ s
  | envPeerstop => exact exec_reaches_of_env ⟨.peerstop, rfl⟩ s
  | envErr k => exact exec_reaches_of_env ⟨.err (.ofNat 2 k.index), by cases k <;> rfl⟩ s

end Sys2Proof.Machine
end

section
/-!
What every elementary update keeps, and so every operation: the fault, the turns and the trace, the latches under
their flags, the bits no register implements, and, outside the environment, the flags and the configuration.
-/

namespace Sys2Proof.Machine

variable {i : Instr} {s t u v : State} {g g' : Regs}

/-- What every elementary update keeps holds after the operation. -/
theorem exec_keeps {P : State → Prop} (hP : ∀ u v, Update i u v → P u → P v) (h : exec i s = .next t) (hs : P s) :
    P t :=
  (exec_reaches i s t h).keeps hP hs

/-! ### The fault, the turns, the phase and the trace -/

theorem Update.keeps_fault {r : FaultReason} (h : Update i u v) (hu : u.fault = some r) : v.fault = some r := by
  cases h with
  | fault r' => simp [hu]
  | read k r' => simpa using hu
  | write k r' b hr => simpa using hu
  | context | engine | caller | bus | memory | emit | send | move => exact hu

theorem Update.turns_eq (h : Update i u v) : v.turns = u.turns := by
  cases h with
  | read k r => simp
  | write k r b hr => simp
  | context | engine | caller | bus | memory | fault | emit | send | move => rfl

theorem Update.enters_no_branch (h : Update i u v) (hv : v.eng = .branch) : u.eng = .branch := by
  cases h with
  | engine p hp => exact absurd hv hp
  | read k r => simpa using hv
  | write k r b hr => simpa using hv
  | context | caller | bus | memory | fault | emit | send | move => exact hv

theorem Update.trace_prefix (h : Update i u v) : u.trace <+: v.trace := by
  cases h with
  | emit k e => simp
  | read k r => simp
  | write k r b hr => simp
  | send k b => simp
  | context | engine | caller | bus | memory | fault | move => exact List.prefix_rfl

theorem exec_turns (h : exec i s = .next t) : t.turns = s.turns :=
  exec_keeps (P := fun u => u.turns = s.turns) (fun _ _ huv hu => huv.turns_eq.trans hu) h rfl

theorem exec_enters_no_branch (h : exec i s = .next t) (ht : t.eng = .branch) : s.eng = .branch :=
  exec_keeps (P := fun u => u.eng = .branch → s.eng = .branch) (fun _ _ huv hu hv => hu (huv.enters_no_branch hv)) h
    id ht

theorem exec_trace_prefix (h : exec i s = .next t) : s.trace <+: t.trace :=
  exec_keeps (P := fun u => s.trace <+: u.trace) (fun _ _ huv hu => hu.trans huv.trace_prefix) h List.prefix_rfl

/-- Settles O9: none at reset, nothing steps after one, and no update of an operation clears one. -/
theorem faultIsFinal : Obligations.FaultIsFinal := by
  unfold Obligations.FaultIsFinal
  exact ⟨rfl, fun _ _ h => step_halted h, fun _ _ _ _ h hs => exec_keeps (fun _ _ huv hu => huv.keeps_fault hu) h hs⟩

/-! ### The latches under their flags (10_state.md R41) -/

/-- A move of the environment clears no flag of `SR1`. -/
theorem RegMove.keeps_sr1_bit {j : Nat} (h : RegMove g g') (hg : g.sr1.getLsbD j = true) :
    g'.sr1.getLsbD j = true := by
  cases h with
  | setFlag k hk himpl =>
    rw [getLsbD_putBit _ _ _ _ hk]
    split
    · rfl
    · exact hg
  | raiseErr | putSr3 | clearCr2 | deliver => exact hg

/-- A read of `SR1` arms the latches of the flags that are set; a read of `SR3` clears `ADDR` with its latch. -/
theorem afterRead_keeps_latchesUnderFlags (k : Tag) (r : RegName) (hs : LatchesUnderFlags s) :
    LatchesUnderFlags (s.afterRead k r) := by
  obtain ⟨hsb, haddr, hstop⟩ := hs
  constructor <;>
    simp only [State.afterRead_seq, State.afterRead_sb, State.afterRead_addr, State.afterRead_stopf] <;>
    split_ifs <;> simp_all [latchesAfterSr1, or_imp]

/-- A write of `DR` clears `SB` and a write of `CR2` clears `STOPF`, each with its latch. -/
theorem writeReg_keeps_latchesUnderFlags (k : Tag) (r : RegName) (b : Byte) (hs : LatchesUnderFlags s) :
    LatchesUnderFlags (s.writeReg k r b) := by
  obtain ⟨hsb, haddr, hstop⟩ := hs
  constructor <;>
    simp only [State.writeReg_seq, State.writeReg_sb, State.writeReg_addr, State.writeReg_stopf] <;>
    split_ifs <;> simp_all

theorem Update.keeps_latchesUnderFlags (h : Update i u v) (hu : LatchesUnderFlags u) : LatchesUnderFlags v := by
  cases h with
  | context | engine | caller | bus | memory | fault | emit => exact ⟨hu.sb, hu.addr, hu.stop⟩
  | read k r => exact afterRead_keeps_latchesUnderFlags k r hu
  | write k r b hr => exact writeReg_keeps_latchesUnderFlags k r b hu
  | send k b =>
    exact ⟨by simpa [Regs.sb, getElem_putBit] using hu.sb, by simpa [Regs.addr, getElem_putBit] using hu.addr,
      by simpa [Regs.stopf, getElem_putBit] using hu.stop⟩
  | move g henv hg =>
    exact ⟨fun h => hg.keeps_sr1_bit (hu.sb h), fun h => hg.keeps_sr1_bit (hu.addr h),
      fun h => hg.keeps_sr1_bit (hu.stop h)⟩

/-! ### The bits no register implements (10_state.md R32 to R40) -/

theorem RegMove.keeps_reservedZero (h : RegMove g g') (hg : ReservedZero g) : ReservedZero g' := by
  cases h with
  | setFlag k hk himpl => exact { hg with sr1 := putBit_outside _ _ _ _ hk himpl hg.sr1 }
  | raiseErr k =>
    exact { hg with sr2 := putBit_outside _ _ _ _ (by cases k <;> decide) (by cases k <;> rfl) hg.sr2 }
  | putSr3 k b hk himpl => exact { hg with sr3 := putBit_outside _ _ _ _ hk himpl hg.sr3 }
  | clearCr2 k hk himpl => exact { hg with cr2 := putBit_outside _ _ _ _ hk himpl hg.cr2 }
  | deliver b => exact { hg with }

theorem afterRead_keeps_reservedZero (k : Tag) (r : RegName) (hs : ReservedZero s.regs) :
    ReservedZero (s.afterRead k r).regs := by
  rw [State.afterRead_regs]
  split_ifs
  · exact { hs with sr1 := putBit_outside _ _ _ _ (by decide) rfl hs.sr1 }
  · exact { hs with sr1 := putBit_outside _ _ _ _ (by decide) rfl hs.sr1 }
  · exact hs

theorem sr1AfterCr2_outside (hs : ReservedZero s.regs) : sr1AfterCr2 s &&& ~~~(implMask .sr1) = 0#8 := by
  unfold sr1AfterCr2
  split_ifs
  · exact putBit_outside _ _ _ _ (by decide) rfl hs.sr1
  · exact hs.sr1

theorem sr1AfterDr_outside (hs : ReservedZero s.regs) : sr1AfterDr s &&& ~~~(implMask .sr1) = 0#8 := by
  have htxe := putBit_outside s.regs.sr1 _ 7 false (by decide) rfl hs.sr1
  unfold sr1AfterDr
  split_ifs
  · exact putBit_outside _ _ _ _ (by decide) rfl htxe
  · exact htxe

theorem writeReg_keeps_reservedZero (k : Tag) (r : RegName) (b : Byte) (hs : ReservedZero s.regs) :
    ReservedZero (s.writeReg k r b).regs := by
  cases r with
  | cr1 => exact { hs with cr1 := and_mask_outside _ _ }
  | cr2 =>
    rw [State.writeReg_cr2_regs]
    exact { hs with cr2 := and_mask_outside _ _, sr1 := sr1AfterCr2_outside hs }
  | oar => exact { hs with oar := and_mask_outside _ _ }
  | dr =>
    rw [State.writeReg_dr_regs]
    exact { hs with sr1 := sr1AfterDr_outside hs }
  | sr2 =>
    refine { hs with sr2 := ?_ }
    rw [State.writeReg_sr2_regs, ← BitVec.and_assoc]
    exact and_mask_outside _ _
  | itr => exact { hs with itr := and_mask_outside _ _ }
  | freqr | ccr | triser => exact { hs with }
  | sr1 | sr3 => exact hs

theorem Update.keeps_reservedZero (h : Update i u v) (hu : ReservedZero u.regs) : ReservedZero v.regs := by
  cases h with
  | context | engine | caller | bus | memory | fault | emit => exact hu
  | read k r => exact afterRead_keeps_reservedZero k r hu
  | write k r b hr => exact writeReg_keeps_reservedZero k r b hu
  | send k b => exact { hu with sr1 := putBit_outside _ _ _ _ (by decide) rfl hu.sr1 }
  | move g henv hg => exact hg.keeps_reservedZero hu

/-! ### The flags, outside the environment (10_state.md R37 to R39) -/

/-- Every flag of `SR1` and `SR2` set in `g'` is set in `g`, and `SR3` is the same. -/
structure NoFlagRaised (g g' : Regs) : Prop where
  sb : g'.sb = true → g.sb = true
  addr : g'.addr = true → g.addr = true
  stopf : g'.stopf = true → g.stopf = true
  rxne : g'.rxne = true → g.rxne = true
  txe : g'.txe = true → g.txe = true
  err : ∀ k, g'.err k = true → g.err k = true
  sr3 : g'.sr3 = g.sr3

theorem NoFlagRaised.refl (g : Regs) : NoFlagRaised g g := ⟨id, id, id, id, id, fun _ => id, rfl⟩

theorem NoFlagRaised.trans {g₁ g₂ g₃ : Regs} (h : NoFlagRaised g₁ g₂) (h' : NoFlagRaised g₂ g₃) :
    NoFlagRaised g₁ g₃ :=
  ⟨h.sb ∘ h'.sb, h.addr ∘ h'.addr, h.stopf ∘ h'.stopf, h.rxne ∘ h'.rxne, h.txe ∘ h'.txe,
    fun k => h.err k ∘ h'.err k, h'.sr3.trans h.sr3⟩

theorem Update.noFlagRaised (h : Update i u v) (hi : ∀ m, i ≠ decodeEnv m) : NoFlagRaised u.regs v.regs := by
  cases h with
  | context | engine | caller | bus | memory | fault | emit => exact .refl _
  | read k r =>
    exact ⟨by simp, fun h => ((u.afterRead_addr k r).1 h).1, by simp, fun h => ((u.afterRead_rxne k r).1 h).1, by simp,
      by simp, by simp⟩
  | write k r b hr =>
    refine ⟨fun h => ((u.writeReg_sb k r b).1 h).1, by simp, fun h => ((u.writeReg_stopf k r b).1 h).1, by simp,
      fun h => ((u.writeReg_txe k r b).1 h).1, fun j h => ?_, by simp⟩
    rw [State.writeReg_err, Bool.and_eq_true] at h
    exact h.1
  | send k b =>
    constructor <;> simp [Regs.sb, Regs.addr, Regs.stopf, Regs.rxne, Regs.txe, Regs.err, getElem_putBit]
  | move g henv hg =>
    obtain ⟨m, rfl⟩ := henv
    exact absurd rfl (hi m)

/-- Settles O50: outside the environment no update of an operation raises a flag. -/
theorem onlyEnvironmentSetsFlags : Obligations.OnlyEnvironmentSetsFlags := by
  unfold Obligations.OnlyEnvironmentSetsFlags
  intro i s t h hi
  obtain ⟨hsb, haddr, hstopf, hrxne, htxe, herr, hsr3⟩ := exec_keeps (P := fun u => NoFlagRaised s.regs u.regs)
    (fun _ _ huv hu => hu.trans (huv.noFlagRaised hi)) h (.refl _)
  exact ⟨hsb, haddr, hstopf, hrxne, htxe, herr, hsr3⟩

/-! ### The configuration registers (10_state.md R32, R34, R35, R40) -/

/-- `CR1`, `ITR`, `FREQR`, `CCR` and `TRISER` are the same. -/
def SameSetup (g g' : Regs) : Prop :=
  g'.cr1 = g.cr1 ∧ g'.itr = g.itr ∧ g'.freqr = g.freqr ∧ g'.ccr = g.ccr ∧ g'.triser = g.triser

theorem SameSetup.refl (g : Regs) : SameSetup g g := ⟨rfl, rfl, rfl, rfl, rfl⟩

theorem SameSetup.trans {g₁ g₂ g₃ : Regs} (h : SameSetup g₁ g₂) (h' : SameSetup g₂ g₃) : SameSetup g₁ g₃ := by
  obtain ⟨hcr1, hitr, hfreqr, hccr, htriser⟩ := h
  obtain ⟨hcr1', hitr', hfreqr', hccr', htriser'⟩ := h'
  exact ⟨hcr1'.trans hcr1, hitr'.trans hitr, hfreqr'.trans hfreqr, hccr'.trans hccr, htriser'.trans htriser⟩

theorem RegMove.sameSetup (h : RegMove g g') : SameSetup g g' := by cases h <;> exact .refl _

theorem RegMove.oar_eq (h : RegMove g g') : g'.oar = g.oar := by cases h <;> rfl

theorem afterRead_sameSetup (k : Tag) (r : RegName) : SameSetup s.regs (s.afterRead k r).regs := by
  rw [State.afterRead_regs]
  split_ifs <;> exact .refl _

theorem afterRead_oar (k : Tag) (r : RegName) : (s.afterRead k r).regs.oar = s.regs.oar := by
  rw [State.afterRead_regs]
  split_ifs <;> rfl

theorem Update.sameSetup (h : Update i u v) (hi : i ≠ .init) : SameSetup u.regs v.regs := by
  cases h with
  | context | engine | caller | bus | memory | fault | emit | send => exact .refl _
  | read k r => exact afterRead_sameSetup k r
  | write k r b hr =>
    obtain rfl | rfl | rfl | rfl | ⟨rfl, -⟩ := hr
    · simp [SameSetup]
    · simp [SameSetup]
    · simp [SameSetup]
    · exact absurd rfl hi
    · simp [SameSetup]
  | move g henv hg => exact hg.sameSetup

theorem Update.oar_eq (h : Update i u v) (hi : i ≠ .init) (hcfg : ∀ a b n, i ≠ .cfgSlave a b n) :
    v.regs.oar = u.regs.oar := by
  cases h with
  | context | engine | caller | bus | memory | fault | emit | send => rfl
  | read k r => exact afterRead_oar k r
  | write k r b hr =>
    obtain rfl | rfl | rfl | rfl | ⟨-, a, b, n, rfl⟩ := hr
    · simp
    · simp
    · simp
    · exact absurd rfl hi
    · exact absurd rfl (hcfg a b n)
  | move g henv hg => exact hg.oar_eq

/-- Settles O45: no update but a write of `INIT` or `CFG_SLAVE` reaches a configuration register. -/
theorem configurationWriters : Obligations.ConfigurationWriters := by
  unfold Obligations.ConfigurationWriters
  refine ⟨fun i s t h => ⟨fun hi => ?_, fun hi hcfg => ?_⟩, fun s hpe => by simp [Regs.pending, hpe]⟩
  · exact exec_keeps (P := fun u => SameSetup s.regs u.regs) (fun _ _ huv hu => hu.trans (huv.sameSetup hi)) h (.refl _)
  · exact exec_keeps (P := fun u => u.regs.oar = s.regs.oar) (fun _ _ huv hu => (huv.oar_eq hi hcfg).trans hu) h rfl

end Sys2Proof.Machine
end

section
/-!
What an operation does to the context, said once (10_state.md R21 to R28): the scratch at most, or what `CFG_SLAVE`
and the arming commands record, or a cursor set to 0 or advanced, or the role given back.
-/

namespace Sys2Proof.Machine

/-- What the operation `i` does to the context of `s`. -/
inductive ContextEffect (s t : State) : Instr → Prop
  | scratch (i : Instr) (hctx : t.ctx = { s.ctx with scratch := t.ctx.scratch }) : ContextEffect s t i
  | configured (a : Addr7) (b n : Nat)
      (hctx : t.ctx = { s.ctx with slaveBuffer := some b, slaveLength := n, role := .slave }) :
      ContextEffect s t (.cfgSlave a b n)
  | armed (d : Direction) (p : Addr7) (b n : Nat) (hcall : s.call = .ready)
      (hctx : t.ctx = { s.ctx with
        direction := some d, peerAddress := some p, masterBuffer := some b, masterLength := some n
        cursor := 0, role := .master }) :
      ContextEffect s t (.arming d p b n)
  | restarted (i : Instr) (hi : i = .mAddr ∨ i = .sAddr)
      (hctx : t.ctx = { s.ctx with cursor := 0, scratch := t.ctx.scratch }) : ContextEffect s t i
  | masterAdvanced (i : Instr) (hi : i = .mTx ∨ i = .mRx) (n : Nat) (hlength : s.ctx.masterLength = some n)
      (hlt : s.ctx.cursor < n) (hne : s.incCursor.ctx.cursor ≠ n) (hctx : t.ctx = s.incCursor.ctx) :
      ContextEffect s t i
  | masterDone (i : Instr) (hi : i = .mTx ∨ i = .mRx) (x : Context) (hx : x = s.ctx ∨ x = s.incCursor.ctx)
      (hctx : t.ctx = { x with role := .slave }) : ContextEffect s t i
  | slaveAdvanced (i : Instr) (hi : i = .sRx ∨ i = .sTx) (hctx : t.ctx = s.incCursor.ctx) : ContextEffect s t i

/-- The operation leaves the whole context. -/
theorem ContextEffect.unchanged {s t : State} (i : Instr) (hctx : t.ctx = s.ctx) : ContextEffect s t i :=
  .scratch i (by rw [hctx])

/-! ### The arms that have parts -/

theorem armStep_context (d : Direction) (p : Addr7) (b n : Nat) (s : State) :
    ContextEffect s (armStep d p b n s) (.arming d p b n) := by
  cases hcall : s.call with
  | ready => exact .armed d p b n hcall (by simp [armStep, armRecord, hcall])
  | armWait => exact .scratch _ (by simp [armStep, armSpin, hcall])
  | armIssue => exact .unchanged _ (by simp [armStep, armIssue, hcall])

/-- A cursor below the length and not at its last index does not reach the length (10_state.md R27). -/
theorem incCursor_ne_length {s : State} {n : Nat} (hlt : s.ctx.cursor < n) (hlast : s.ctx.cursor ≠ lastIndex s.cfg n) :
    s.incCursor.ctx.cursor ≠ n := by
  intro hn
  have hle : s.incCursor.ctx.cursor ≤ s.ctx.cursor + 1 := Nat.mod_le _ _
  have hspan : s.incCursor.ctx.cursor < s.cfg.lenSpan := Nat.mod_lt _ (Nat.two_pow_pos _)
  rw [hn] at hle hspan
  rw [lastIndex_pos (by omega) hspan] at hlast
  omega

theorem execMStart_context (s : State) : EveryNext (ContextEffect s · .mStart) (execMStart s) := by
  refine everyNext_needField (fun _ => .scratch _ (by simp)) fun p _ => ?_
  refine everyNext_needField (fun _ => .scratch _ (by simp)) fun d _ => ?_
  exact everyNext_next.2 (.scratch _ (by simp))

/-- The completion test of `M_TX` is reached with the context as it was, or with the buffer read and the cursor
advanced. -/
theorem mTxCompletion_context {s u : State} {n : Nat}
    (hu : u.ctx = s.ctx ∨ u.ctx = s.incCursor.ctx ∧ ∃ base, s.ctx.masterBuffer = some base)
    (hrest : u.ctx.cursor ≠ n → ContextEffect s u.endBranch .mTx) :
    EveryNext (ContextEffect s · .mTx) (mTxCompletion n u) := by
  unfold mTxCompletion
  split
  · cases hbase : u.ctx.masterBuffer with
    | none =>
      obtain hu | ⟨hu, base, hsome⟩ := hu
      · simp only [State.requestStop_ctx, hbase, needField_none]
        exact everyNext_raiseFault _ fun _ => .unchanged _ (by simp [hu])
      · simp [hu, hsome] at hbase
    | some base =>
      simp only [State.requestStop_ctx, hbase, needField_some, everyNext_next]
      exact .masterDone _ (.inl rfl) u.ctx (hu.imp_right And.left) (by simp)
  · exact everyNext_next.2 (hrest ‹_›)

theorem execMTx_context (s : State) : EveryNext (ContextEffect s · .mTx) (execMTx s) := by
  refine everyNext_needField (fun _ => .unchanged _ rfl) fun n hn => ?_
  split
  case isTrue hlt =>
    refine everyNext_needField (fun _ => .unchanged _ rfl) fun base hbase => ?_
    refine everyNext_memRead (fun _ => .unchanged _ rfl) fun _ => ?_
    refine mTxCompletion_context (.inr ⟨?_, base, hbase⟩) fun hne => ?_
    · simp
    · exact .masterAdvanced _ (.inl rfl) n hn hlt (by simpa using hne) (by simp)
  case isFalse hlt => exact mTxCompletion_context (.inl rfl) fun _ => .unchanged _ rfl

/-- The completion of `M_RX` is reached with the context as it was. -/
theorem mRxCompletion_context {s u : State} {n : Nat} (hu : u.ctx = s.ctx) (hcfg : u.cfg = s.cfg)
    (hrest : s.ctx.cursor < n → s.ctx.cursor ≠ lastIndex s.cfg n → ContextEffect s u.incCursor.endBranch .mRx) :
    EveryNext (ContextEffect s · .mRx) (mRxCompletion n u) := by
  unfold mRxCompletion mRxEnd
  rw [hu, hcfg]
  split
  case isTrue =>
    refine everyNext_needField (fun _ => .unchanged _ (by simp [hu])) fun base _ => everyNext_next.2 ?_
    exact .masterDone _ (.inr rfl) _ (.inr rfl) (by simp [hu, hcfg])
  case isFalse hlast =>
    split
    case isTrue => exact everyNext_next.2 (.masterDone _ (.inr rfl) _ (.inr rfl) (by simp [hu, hcfg]))
    case isFalse hlt => exact everyNext_next.2 (hrest (Nat.lt_of_not_le hlt) hlast)

theorem execMRx_context (s : State) : EveryNext (ContextEffect s · .mRx) (execMRx s) := by
  refine everyNext_needField (fun _ => .unchanged _ (by simp)) fun n hn => ?_
  split
  case isTrue hlt =>
    refine everyNext_needField (fun _ => .unchanged _ (by simp)) fun base _ => ?_
    refine everyNext_memWrite (fun _ => .unchanged _ (by simp)) fun _ => ?_
    refine mRxCompletion_context (by simp) (by simp) fun hlt hlast => ?_
    exact .masterAdvanced _ (.inr rfl) n (by simpa using hn) hlt (incCursor_ne_length hlt hlast) (by simp)
  case isFalse hlt => exact mRxCompletion_context (by simp) (by simp) fun h => absurd h (by simpa using hlt)

theorem execSRx_context (s : State) : EveryNext (ContextEffect s · .sRx) (execSRx s) := by
  unfold execSRx
  dsimp only
  split
  · refine everyNext_needField (fun _ => .unchanged _ (by simp)) fun base _ => ?_
    refine everyNext_memWrite (fun _ => .unchanged _ (by simp)) fun _ => everyNext_next.2 ?_
    refine .slaveAdvanced _ (.inl rfl) ?_
    split <;> simp
  · exact everyNext_next.2 (.unchanged _ (by simp))

theorem execSTx_context (s : State) : EveryNext (ContextEffect s · .sTx) (execSTx s) := by
  unfold execSTx
  dsimp only
  split
  · refine everyNext_needField (fun _ => .unchanged _ rfl) fun base _ => ?_
    refine everyNext_memRead (fun _ => .unchanged _ rfl) fun _ => everyNext_next.2 ?_
    refine .slaveAdvanced _ (.inr rfl) ?_
    split <;> simp
  · exact everyNext_next.2 (.unchanged _ (by simp))

/-! ### Every operation -/

theorem exec_context (i : Instr) (s : State) : EveryNext (ContextEffect s · i) (exec i s) := by
  cases i with
  | init => exact everyNext_next.2 (.unchanged _ (by simp))
  | cfgSlave a b n => exact everyNext_next.2 (.configured a b n (by simp))
  | armWrite p b n => exact everyNext_next.2 (armStep_context .write p b n s)
  | armRead p b n => exact everyNext_next.2 (armStep_context .read p b n s)
  | mStart => exact execMStart_context s
  | mAddr => exact everyNext_next.2 (.restarted _ (.inl rfl) (by simp))
  | sAddr => exact everyNext_next.2 (.restarted _ (.inr rfl) (by simp))
  | mTx => exact execMTx_context s
  | mRx => exact execMRx_context s
  | sRx => exact execSRx_context s
  | sTx => exact execSTx_context s
  | mTxUnexpected | mTxIdle | mRxIdle | sIdle | epiErr | epiStop => exact everyNext_next.2 (.unchanged _ (by simp))
  | envStartdone | envAddrack | envAddrnack | envTxack | envTxnack | envRxbyte | envStopdone | envBusstart | envMatch
  | envPeerstop | envErr => exact everyNext_next.2 (.unchanged _ rfl)

/-! ### Who writes the context -/

theorem arming_eq (d : Direction) (p : Addr7) (b n : Nat) :
    Instr.arming d p b n = .armWrite p b n ∨ Instr.arming d p b n = .armRead p b n := by
  cases d with
  | write => exact .inl rfl
  | read => exact .inr rfl

/-- Settles O44: of the effects on the context, three change the role. -/
theorem roleWriters : Obligations.RoleWriters := by
  unfold Obligations.RoleWriters
  intro i s t h hrole
  cases exec_context i s t h with
  | scratch _ hctx | restarted _ _ hctx | masterAdvanced _ _ _ _ _ _ hctx | slaveAdvanced _ _ hctx =>
    rw [hctx] at hrole
    exact absurd rfl hrole
  | configured a b n hctx => exact .inl ⟨by rw [hctx], .inl ⟨a, b, n, rfl⟩⟩
  | armed d p b n hcall hctx => exact .inr ⟨by rw [hctx], hcall, p, b, n, arming_eq d p b n⟩
  | masterDone _ hi x hx hctx => exact .inl ⟨by rw [hctx], .inr hi⟩

/-- Settles O46: of the effects on the context, one changes the fields of a transfer, one the slave's buffer, and five
the cursor. -/
theorem contextWriters : Obligations.ContextWriters := by
  unfold Obligations.ContextWriters
  intro i s t h
  cases exec_context i s t h with
  | scratch _ hctx =>
    rw [hctx]
    simp
  | configured a b n hctx =>
    rw [hctx]
    simp
  | armed d p b n hcall hctx =>
    have harm := arming_eq d p b n
    refine ⟨fun _ => ⟨p, b, n, harm⟩, fun hslave => ?_, fun _ => .inl ⟨p, b, n, harm⟩⟩
    rw [hctx] at hslave
    simp at hslave
  | restarted _ hi hctx =>
    rw [hctx]
    exact ⟨by simp, by simp, fun _ => .inr (by tauto)⟩
  | masterAdvanced _ hi n _ _ _ hctx =>
    rw [hctx]
    exact ⟨by simp, by simp, fun _ => .inr (by tauto)⟩
  | masterDone _ hi x hx hctx =>
    refine ⟨?_, ?_, fun _ => .inr (by tauto)⟩ <;> obtain rfl | rfl := hx <;> simp [hctx]
  | slaveAdvanced _ hi hctx =>
    rw [hctx]
    exact ⟨by simp, by simp, fun _ => .inr (by tauto)⟩

end Sys2Proof.Machine
end

section
/-!
What a step is: a turn is taken, which reads at most a status register and moves none of the registers or the context,
and then at most one operation runs. Each invariant is kept by both parts.
-/

namespace Sys2Proof.Machine

/-! ### Taking a turn -/

/-- What a turn taken from `s` leaves before an operation runs, or where none is selected. -/
structure TurnFrame (s t : State) : Prop where
  cfg : t.cfg = s.cfg
  ctx : t.ctx = { s.ctx with scratch := t.ctx.scratch }
  regs : t.regs = s.regs
  seq : t.seq = s.seq ∨ t.seq = latchesAfterSr1 s
  trace : s.trace <+: t.trace
  eng : t.eng = .branch → s.eng = .branch ∨ s.eng = .idle ∧ s.regs.pending = true

/-- A dispatch word formed in Master role has the bit `r` set (30_encoding.md R85). -/
def FormedIn (r : Role) (c : Code) : Prop := ∀ w, c = .dispatch w → r = .master → w.getLsbD 6 = true

/-- What a fetch comes to: nothing but the frame, or an operation to run after it. -/
def Fetched.TakesTurn (s : State) : Fetched → Prop
  | .quiet o => EveryNext (TurnFrame s) o
  | .code c t => TurnFrame s t ∧ FormedIn t.ctx.role c
  | .resume i t => TurnFrame s t ∧ i = armingUnderWay t

section
variable {s t : State}

theorem TurnFrame.refl (s : State) : TurnFrame s s := ⟨rfl, rfl, rfl, .inl rfl, List.prefix_rfl, .inl⟩

/-- The turns, the memory, the environment, the refusal marks and the fault are no part of the frame. -/
theorem TurnFrame.change (h : TurnFrame s t) (ts : List Turn) (m : Memory) (e : Env) (rs : List RefusalMark)
    (f : Option FaultReason) :
    TurnFrame s { t with turns := ts, mem := m, env := e, refusals := rs, fault := f } :=
  ⟨h.cfg, h.ctx, h.regs, h.seq, h.trace, h.eng⟩

theorem TurnFrame.raiseFault (h : TurnFrame s t) (r : FaultReason) : EveryNext (TurnFrame s) (raiseFault r t) :=
  everyNext_raiseFault r fun _ => h.change _ _ _ _ _

theorem TurnFrame.mark (h : TurnFrame s t) (m : RefusalMark) : TurnFrame s (t.mark m) := h.change _ _ _ _ _

/-- A turn popped and the status register read. -/
theorem turnFrame_readScratch (ts : List Turn) (k : Tag) (s : State) :
    TurnFrame s (State.readScratch { s with turns := ts } k .sr1) :=
  ⟨rfl, rfl, rfl, .inr rfl, List.prefix_append _ _, .inl⟩

variable (ts : List Turn) (s)

theorem turnFrame_turns : TurnFrame s { s with turns := ts } := (TurnFrame.refl s).change _ _ _ _ _

theorem dispatchWord_formedIn (r : Role) (d : Direction) (sr1 : Byte) :
    FormedIn r (.dispatch (dispatchWord r d sr1)) := by
  intro w hw hr
  cases hw
  subst hr
  simp only [dispatchWord, BitVec.getLsbD_append]
  rfl

theorem fetchBranch_takesTurn : (fetchBranch { s with turns := ts }).TakesTurn s := by
  have hread := turnFrame_readScratch ts .dispatch s
  unfold fetchBranch
  dsimp only
  split
  case h_1 hrole => exact ⟨hread, hrole ▸ dispatchWord_formedIn _ _ _⟩
  case h_2 hrole =>
    split
    · exact ⟨hread, hrole ▸ dispatchWord_formedIn _ _ _⟩
    · exact hread.raiseFault _

theorem engineTurn_takesTurn : (engineTurn { s with turns := ts }).TakesTurn s := by
  unfold engineTurn
  split
  case h_1 hidle =>
    refine everyNext_next.2 ?_
    split
    case isTrue hpending => exact ⟨rfl, rfl, rfl, .inl rfl, List.prefix_rfl, fun _ => .inr ⟨hidle, hpending⟩⟩
    case isFalse => exact turnFrame_turns s ts
  case h_2 => exact fetchBranch_takesTurn s ts
  case h_3 => exact ⟨⟨rfl, rfl, rfl, .inl rfl, List.prefix_append _ _, .inl⟩, nofun⟩
  case h_4 => exact ⟨turnFrame_readScratch ts .epiStop s, nofun⟩

theorem background_takesTurn : (background s).TakesTurn s := by
  unfold background
  split
  · exact engineTurn_takesTurn s s.turns
  · split
    · exact ⟨.refl s, rfl⟩
    · exact everyNext_next.2 (.refl s)

theorem callerStore_turnFrame (a : Nat) (v : Byte) :
    EveryNext (TurnFrame s) (callerStore a v { s with turns := ts }) := by
  unfold callerStore
  split
  · exact everyNext_next.2 ((TurnFrame.refl s).change _ _ _ _ _)
  · exact everyNext_fault _

theorem runBody_turnFrame (b : CallbackBody) : TurnFrame s (State.runBody { s with turns := ts } b) := by
  unfold State.runBody
  split
  · exact (turnFrame_turns s ts).mark _
  · exact turnFrame_turns s ts

theorem fetch_takesTurn : (fetch s).TakesTurn s := by
  unfold fetch
  cases s.turns with
  | nil => exact background_takesTurn s
  | cons turn ts =>
    cases turn with
    | command w =>
      dsimp only
      split
      · exact ⟨turnFrame_turns s ts, nofun⟩
      · exact background_takesTurn s
    | caller =>
      dsimp only
      split
      · exact engineTurn_takesTurn s s.turns
      · split
        · exact ⟨turnFrame_turns s ts, rfl⟩
        · exact everyNext_next.2 (turnFrame_turns s ts)
    | store a v =>
      dsimp only
      split
      · exact callerStore_turnFrame s ts a v
      · exact background_takesTurn s
    | engine => exact engineTurn_takesTurn s ts
    | env m => exact ⟨turnFrame_turns s ts, nofun⟩
    | called a => exact everyNext_next.2 ((TurnFrame.refl s).change _ _ _ _ _)
    | callback b => exact everyNext_next.2 (runBody_turnFrame s ts b)

end

/-- An epilogue phase that is skipped is followed by no Branch phase. -/
theorem skipPhase_enters_no_branch {s : State} (h : s.skipPhase.eng = .branch) : s.eng = .branch := by
  cases heng : s.eng <;> simp_all [State.skipPhase]

theorem notDecoded_turnFrame {s t : State} (e : DecodeError) (h : TurnFrame s t) :
    EveryNext (TurnFrame s) (notDecoded e t) := by
  cases e with
  | reservedCommand op => exact everyNext_next.2 (h.mark _)
  | operandWidth => exact everyNext_next.2 (h.mark _)
  | notSelected =>
    exact everyNext_next.2 ⟨by simp [h.cfg], by simpa using h.ctx, by simp [h.regs], by simpa using h.seq,
      by simpa using h.trace, fun hb => h.eng (skipPhase_enters_no_branch hb)⟩

/-- In Master role no data arm of the slave branch is selected (30_encoding.md R86). -/
theorem dispatchArm_master :
    ∀ w : DispatchWord, w.getLsbD 6 = true → (dispatchArm w).instr ≠ .sRx ∧ (dispatchArm w).instr ≠ .sTx := by decide

theorem arming_not_slaveData (d : Direction) (p : Addr7) (b n : Nat) :
    Instr.arming d p b n ≠ .sRx ∧ Instr.arming d p b n ≠ .sTx := by
  cases d <;> exact ⟨nofun, nofun⟩

/-- Only a dispatch word selects a data arm of the slave branch, and none formed in Master role does. -/
theorem decode_not_slaveData {c : Config} {code : Code} {i : Instr} (h : decode c code = .ok i)
    (hformed : FormedIn .master code) : i ≠ .sRx ∧ i ≠ .sTx := by
  cases code with
  | cmd w =>
    simp only [decode, decodeCmd] at h
    split_ifs at h
    · cases h; exact ⟨nofun, nofun⟩
    · obtain ⟨a, rfl, -⟩ := decodeOperands_ok h
      exact ⟨nofun, nofun⟩
    · obtain ⟨a, rfl, -⟩ := decodeOperands_ok h
      exact arming_not_slaveData _ _ _ _
  | dispatch w =>
    cases h
    exact dispatchArm_master w (hformed w rfl rfl)
  | epiErr e =>
    simp only [decode, decodeEpiErr] at h
    split_ifs at h
    cases h
    exact ⟨nofun, nofun⟩
  | epiStop v =>
    simp only [decode, decodeEpiStop] at h
    split_ifs at h
    cases h
    exact ⟨nofun, nofun⟩
  | env m => cases m <;> cases h <;> exact ⟨nofun, nofun⟩

/-- A step takes a turn and runs at most one operation: the arming command under way, or one decoded from the code
formed. -/
theorem step_cases {s t : State} (h : step s = .next t) :
    TurnFrame s t ∨ ∃ u i, TurnFrame s u ∧ exec i u = .next t ∧
      (i = armingUnderWay u ∨ ∃ c, decode u.cfg c = .ok i ∧ FormedIn u.ctx.role c) := by
  rw [step_run (fault_none_of_step h)] at h
  have hfetch := fetch_takesTurn s
  generalize fetch s = f at h hfetch
  obtain ⟨o, rfl, ho⟩ | ⟨i, u, rfl, hexec⟩ | ⟨c, u, i, rfl, hdec, hexec⟩ | ⟨c, u, e, rfl, -, hnone⟩ := run_next h
  · exact .inl (hfetch t ho)
  · exact .inr ⟨u, i, hfetch.1, hexec, .inl hfetch.2⟩
  · exact .inr ⟨u, i, hfetch.1, hexec, .inr ⟨c, hdec, hfetch.2⟩⟩
  · exact .inl (notDecoded_turnFrame e hfetch.1 t hnone)

/-- What taking a turn keeps and every operation keeps, a step keeps. -/
theorem step_keeps {P : State → Prop} (hturn : ∀ s t, TurnFrame s t → P s → P t)
    (hexec : ∀ i s t, exec i s = .next t → P s → P t) {s t : State} (hs : P s) (h : step s = .next t) : P t := by
  obtain hframe | ⟨u, i, hframe, hexec', -⟩ := step_cases h
  · exact hturn s t hframe hs
  · exact hexec i u t hexec' (hturn s u hframe hs)

/-! ### The invariants of the registers and the trace -/

/-- Settles O48: the turn's own reads come after the trace, and so does what the operation records. -/
theorem traceGrows : Obligations.TraceGrows := by
  unfold Obligations.TraceGrows
  intro s t h
  exact step_keeps (P := fun u => s.trace <+: u.trace) (fun _ _ hframe hs => hs.trans hframe.trace)
    (fun _ _ _ hexec hs => hs.trans (exec_trace_prefix hexec)) List.prefix_rfl h

/-- A read of `SR1` arms the latches of the flags that are set. -/
theorem TurnFrame.keeps_latchesUnderFlags {s t : State} (h : TurnFrame s t) (hs : LatchesUnderFlags s) :
    LatchesUnderFlags t := by
  obtain ⟨hsb, haddr, hstop⟩ := hs
  obtain hseq | hseq := h.seq
  · constructor <;> rwa [h.regs, hseq]
  · constructor <;> simpa [h.regs, hseq, latchesAfterSr1, or_imp]

/-- Settles O55: a flag is cleared together with its latch, and a latch is armed only where its flag is set. -/
theorem latchInvariantKept : Obligations.LatchInvariantKept := by
  unfold Obligations.LatchInvariantKept
  exact fun s t hs h => step_keeps (fun _ _ hframe => hframe.keeps_latchesUnderFlags)
    (fun _ _ _ => exec_keeps fun _ _ huv => huv.keeps_latchesUnderFlags) hs h

/-- Settles O56: every write is masked, every flag set is an implemented one, and taking a turn writes none. -/
theorem reservedBitsKept : Obligations.ReservedBitsKept := by
  unfold Obligations.ReservedBitsKept
  exact fun s t hs h => step_keeps (P := fun u => ReservedZero u.regs) (fun _ _ hframe hs => hframe.regs ▸ hs)
    (fun _ _ _ => exec_keeps fun _ _ huv => huv.keeps_reservedZero) hs h

/-! ### The invariants of the context -/

/-- The context up to the scratch decides both invariants. -/
theorem TurnFrame.keeps_masterArmed {s t : State} (h : TurnFrame s t) (hs : MasterArmed s) : MasterArmed t := by
  unfold MasterArmed
  rw [h.ctx]
  exact hs

theorem TurnFrame.keeps_slaveConfigured {s t : State} (h : TurnFrame s t) (hs : SlaveConfigured s) :
    SlaveConfigured t := by
  unfold SlaveConfigured
  rw [h.ctx]
  exact hs

/-- The cursor grows by at most one, so below the length it stays below or reaches it. -/
theorem incCursor_lt_length {s : State} {n : Nat} (hlt : s.ctx.cursor < n) (hne : s.incCursor.ctx.cursor ≠ n) :
    s.incCursor.ctx.cursor < n := by
  have hle : s.incCursor.ctx.cursor ≤ s.ctx.cursor + 1 := Nat.mod_le _ _
  omega

theorem ContextEffect.keeps_masterArmed {i : Instr} {s t : State} (h : ContextEffect s t i) (hs : MasterArmed s)
    (hi : s.ctx.role = .master → i ≠ .sRx ∧ i ≠ .sTx) : MasterArmed t := by
  unfold MasterArmed
  cases h with
  | scratch _ hctx => rw [hctx]; exact hs
  | configured a b n hctx => rw [hctx]; exact nofun
  | armed d p b n hcall hctx => rw [hctx]; exact fun _ => ⟨rfl, rfl, rfl, n, rfl, .inr rfl⟩
  | restarted _ _ hctx =>
    rw [hctx]
    intro hrole
    obtain ⟨hdir, hpeer, hbuf, n, hn, -⟩ := hs hrole
    exact ⟨hdir, hpeer, hbuf, n, hn, .inr rfl⟩
  | masterAdvanced _ _ n hn hlt hne hctx =>
    rw [hctx]
    intro hrole
    obtain ⟨hdir, hpeer, hbuf, -⟩ := hs hrole
    exact ⟨hdir, hpeer, hbuf, n, hn, .inl (incCursor_lt_length hlt hne)⟩
  | masterDone _ _ x hx hctx => rw [hctx]; exact nofun
  | slaveAdvanced _ hdata hctx =>
    rw [hctx]
    intro hrole
    obtain ⟨hrx, htx⟩ := hi hrole
    obtain rfl | rfl := hdata
    · exact absurd rfl hrx
    · exact absurd rfl htx

theorem ContextEffect.keeps_slaveConfigured {i : Instr} {s t : State} (h : ContextEffect s t i)
    (hs : SlaveConfigured s) : SlaveConfigured t := by
  unfold SlaveConfigured
  cases h with
  | scratch _ hctx | armed _ _ _ _ _ hctx | restarted _ _ hctx | masterAdvanced _ _ _ _ _ _ hctx
  | slaveAdvanced _ _ hctx =>
    rw [hctx]
    exact hs
  | configured a b n hctx => rw [hctx]; exact nofun
  | masterDone _ _ x hx hctx =>
    rw [hctx]
    obtain rfl | rfl := hx <;> exact hs

/-- Settles O53: taking a turn moves only the scratch; an operation advances the cursor of a master short of the length,
or gives the role back; and in Master role no slave arm is selected. -/
theorem contextInvariantKept : Obligations.ContextInvariantKept := by
  unfold Obligations.ContextInvariantKept
  intro s t hmaster hslave h
  obtain hframe | ⟨u, i, hframe, hexec, hsel⟩ := step_cases h
  · exact ⟨hframe.keeps_masterArmed hmaster, hframe.keeps_slaveConfigured hslave⟩
  · have heffect := exec_context i u t hexec
    refine ⟨heffect.keeps_masterArmed (hframe.keeps_masterArmed hmaster) fun hrole => ?_,
      heffect.keeps_slaveConfigured (hframe.keeps_slaveConfigured hslave)⟩
    obtain rfl | ⟨c, hdec, hformed⟩ := hsel
    · exact arming_not_slaveData _ _ _ _
    · exact decode_not_slaveData hdec (hrole ▸ hformed)

/-! ### The widths of the context's values (10_state.md R23 to R27, 30_encoding.md R91) -/

theorem WidthsFit.of_ctx {s t : State} (hcfg : t.cfg = s.cfg) (h : WidthsFit { s with ctx := t.ctx }) :
    WidthsFit t := by
  obtain ⟨hcursor, hslaveLength, hlength, hbuffer, hslaveBuffer⟩ := h
  constructor <;> rw [hcfg] <;> assumption

theorem TurnFrame.keeps_widthsFit {s t : State} (h : TurnFrame s t) (hs : WidthsFit s) : WidthsFit t := by
  refine .of_ctx h.cfg ?_
  rw [h.ctx]
  exact { hs with }

theorem operandsFit_iff {c : Config} {b n : Nat} : c.operandsFit b n = true ↔ b < c.addrSpan ∧ n < c.lenSpan := by
  simp [Config.operandsFit]

theorem arming_wellFormed {c : Config} (d : Direction) (p : Addr7) (b n : Nat) :
    (Instr.arming d p b n).wellFormed c = c.operandsFit b n := by cases d <;> rfl

theorem getD_zero_lt {o : Option Nat} {k : Nat} (hk : 0 < k) (h : ∀ n, o = some n → n < k) : o.getD 0 < k := by
  cases o with
  | none => exact hk
  | some n => exact h n rfl

/-- The operands of the arming command under way are the context's. -/
theorem armingUnderWay_wellFormed {s : State} (hs : WidthsFit s) : (armingUnderWay s).wellFormed s.cfg = true := by
  rw [armingUnderWay, arming_wellFormed, operandsFit_iff]
  exact ⟨getD_zero_lt (Nat.two_pow_pos _) hs.masterBuffer, getD_zero_lt (Nat.two_pow_pos _) hs.masterLength⟩

theorem WidthsFit.incCursor {s : State} (hs : WidthsFit s) : WidthsFit s.incCursor :=
  { hs with cursor := Nat.mod_lt _ (Nat.two_pow_pos _) }

theorem ContextEffect.keeps_widthsFit {i : Instr} {s t : State} (h : ContextEffect s t i) (hcfg : t.cfg = s.cfg)
    (hwf : i.wellFormed s.cfg = true) (hs : WidthsFit s) : WidthsFit t := by
  refine .of_ctx hcfg ?_
  cases h with
  | scratch _ hctx => rw [hctx]; exact { hs with }
  | configured a b n hctx =>
    obtain ⟨hb, hn⟩ := operandsFit_iff.1 hwf
    rw [hctx]
    exact { hs with slaveLength := hn, slaveBuffer := by simpa using hb }
  | armed d p b n hcall hctx =>
    rw [arming_wellFormed, operandsFit_iff] at hwf
    obtain ⟨hb, hn⟩ := hwf
    rw [hctx]
    exact { hs with
      cursor := Nat.two_pow_pos _, masterBuffer := by simpa using hb, masterLength := by simpa using hn }
  | restarted _ _ hctx => rw [hctx]; exact { hs with cursor := Nat.two_pow_pos _ }
  | masterAdvanced _ _ n _ _ _ hctx | slaveAdvanced _ _ hctx => rw [hctx]; exact { hs.incCursor with }
  | masterDone _ _ x hx hctx =>
    rw [hctx]
    obtain rfl | rfl := hx
    · exact { hs with }
    · exact { hs.incCursor with }

/-- Settles O57: recorded operands fit (the decoder has checked them, or they stand in the context), and an advanced
cursor is reduced. -/
theorem widthsKept : Obligations.WidthsKept := by
  unfold Obligations.WidthsKept
  intro s t hs h
  obtain hframe | ⟨u, i, hframe, hexec, hsel⟩ := step_cases h
  · exact hframe.keeps_widthsFit hs
  · have hu := hframe.keeps_widthsFit hs
    refine (exec_context i u t hexec).keeps_widthsFit (exec_keeps_cfg u.cfg i u rfl t hexec) ?_ hu
    obtain rfl | ⟨c, hdec, -⟩ := hsel
    · exact armingUnderWay_wellFormed hu
    · exact decode_wellFormed hdec

end Sys2Proof.Machine
end

section
/-!
Service entry and its fairness (10_state.md R47, 60_exceptions.md R220, R224).
-/

namespace Sys2Proof.Machine

/-! ### Entry into the Branch phase -/

/-- A step enters the Branch phase only by service entry: no operation moves into it. -/
theorem step_enters_branch {s t : State} (h : step s = .next t) (hne : s.eng ≠ .branch) (ht : t.eng = .branch) :
    s.eng = .idle ∧ s.regs.pending = true := by
  obtain hframe | ⟨u, i, hframe, hexec, -⟩ := step_cases h
  · exact (hframe.eng ht).resolve_left hne
  · exact (hframe.eng (exec_enters_no_branch hexec ht)).resolve_left hne

theorem step_engine_idle {s : State} {ts : List Turn} (hfault : s.fault = none) (hturns : s.turns = .engine :: ts)
    (hidle : s.eng = .idle) :
    step s = .next (if s.regs.pending then State.enterService { s with turns := ts } else { s with turns := ts }) := by
  rw [step_run hfault]
  simp [fetch, hturns, engineTurn, hidle]

/-! ### Fairness -/

/-- Fewer turns are due than `n`. -/
def FewerTurns (n : Nat) (s : State) : Prop := s.turns.length < n

theorem notDecoded_turns {e : DecodeError} {s t : State} (h : notDecoded e s = .next t) : t.turns = s.turns := by
  cases e <;> cases h <;> simp

theorem run_fewerTurns {n : Nat} {f : Fetched} (hf : f.Carries (FewerTurns n)) : EveryNext (FewerTurns n) (run f) := by
  refine everyNext_run hf (fun i u hu t h => ?_) (fun e u hu t h => ?_)
  · rwa [FewerTurns, exec_turns h]
  · rwa [FewerTurns, notDecoded_turns h]

theorem background_awaiting {s : State} (hidle : s.eng = .idle) (hpending : s.regs.pending = true) :
    background s = .quiet (.next s.enterService) := by
  simp [background, engineTurn, hidle, hpending]

/-- Where a service step awaits, the next turn begins it or is one turn fewer. -/
theorem fetch_awaiting {s : State} (hidle : s.eng = .idle) (hpending : s.regs.pending = true) :
    (∃ u, fetch s = .quiet (.next u) ∧ u.eng = .branch) ∨ (fetch s).Carries (FewerTurns s.turns.length) := by
  have hback := background_awaiting hidle hpending
  cases hturns : s.turns with
  | nil => exact .inl ⟨s.enterService, by simp [fetch, hturns, hback], rfl⟩
  | cons turn ts =>
    cases turn with
    | engine =>
      exact .inl ⟨State.enterService { s with turns := ts }, by simp [fetch, hturns, engineTurn, hidle, hpending], rfl⟩
    | command w =>
      by_cases hfree : s.callerFree = true
      · exact .inr (by simp [fetch, hturns, hfree, Fetched.Carries, FewerTurns])
      · exact .inl ⟨s.enterService, by simp [fetch, hturns, hfree, hback], rfl⟩
    | store a v =>
      by_cases hfree : s.callerFree = true
      · right
        simp only [fetch, hturns, hfree, if_true, Fetched.Carries, callerStore]
        split
        · simp [FewerTurns]
        · exact everyNext_fault _
      · exact .inl ⟨s.enterService, by simp [fetch, hturns, hfree, hback], rfl⟩
    | caller =>
      right
      by_cases hcall : s.call = .ready <;> simp [fetch, hturns, hidle, hcall, Fetched.Carries, FewerTurns]
    | env m | called a => exact .inr (by simp [fetch, hturns, Fetched.Carries, FewerTurns])
    | callback b =>
      right
      simp only [fetch, hturns, Fetched.Carries, everyNext_next, State.runBody]
      split <;> simp [FewerTurns]

theorem State.awaitsService_iff {s : State} : s.awaitsService = true ↔ s.eng = .idle ∧ s.regs.pending = true := by
  simp [State.awaitsService]

/-- A step from where a service step awaits begins it or leaves fewer turns due. -/
theorem step_awaiting {s t : State} (h : step s = .next t) (hs : s.awaitsService = true) :
    t.awaitsService = false ∨ t.turns.length < s.turns.length := by
  obtain ⟨hidle, hpending⟩ := State.awaitsService_iff.1 hs
  rw [step_run (fault_none_of_step h)] at h
  obtain ⟨u, hfetch, hbranch⟩ | hfewer := fetch_awaiting hidle hpending
  · rw [hfetch] at h
    cases h
    exact .inl (by simp [State.awaitsService, hbranch])
  · exact .inr (run_fewerTurns hfewer t h)

/-- By induction on the turns due: each step takes one, until service begins or is awaited no more. -/
theorem closedRun_fair {r : Nat → State} (hr : ClosedRun r) : FairService r := by
  intro n
  induction hk : (r n).turns.length using Nat.strong_induction_on generalizing n with
  | _ k ih =>
    cases hs : (r n).awaitsService with
    | false => exact ⟨n, le_rfl, hs⟩
    | true =>
      obtain hdone | hlt := step_awaiting (hr n) hs
      · exact ⟨n + 1, n.le_succ, hdone⟩
      · obtain ⟨m, hm, hdone⟩ := ih _ (hk ▸ hlt) (n + 1) rfl
        exact ⟨m, by omega, hdone⟩

/-- A run in which nothing arrives is a run. -/
theorem closedRun_run {r : Nat → State} (hr : ClosedRun r) : Run r :=
  fun n => ⟨r (n + 1), [], hr n, by simp [State.arrive]⟩

/-- Settles O7: entry is the engine's turn in `Idle`, no other step leads into `Branch`, and a closed run takes its
turns. -/
theorem serviceEntry : Obligations.ServiceEntry := by
  unfold Obligations.ServiceEntry
  refine ⟨fun s ts hfault hturns hidle => ⟨fun hpending => ?_, fun hpending => ?_⟩,
    fun s t h => step_enters_branch h, fun r hr => ⟨closedRun_run hr, closedRun_fair hr⟩⟩
  · rw [step_engine_idle hfault hturns hidle, if_pos hpending]
    rfl
  · rw [step_engine_idle hfault hturns hidle, if_neg (by simp [hpending])]

end Sys2Proof.Machine
end

section
/-!
The reset state (10_state.md R51, R52), and the moves `MATCH` and `ERR` (44_bus_environment.md R194, R198).
-/

namespace Sys2Proof.Machine

/-- Settles O10: each field of the reset state, read off. -/
theorem resetValues : Obligations.ResetValues := by
  unfold Obligations.ResetValues
  intro c
  refine ⟨_, rfl, ?_⟩
  and_intros <;> rfl

/-- Settles O58: at reset the role is Slave, no field is written, every count, latch and flag is 0. -/
theorem resetMeetsInvariants : Obligations.ResetMeetsInvariants := by
  unfold Obligations.ResetMeetsInvariants
  intro c
  have hmaster : MasterArmed (State.resetWith c) := nofun
  have hslave : SlaveConfigured (State.resetWith c) := fun _ => rfl
  have hlatches : LatchesUnderFlags (State.resetWith c) := ⟨nofun, nofun, nofun⟩
  have hreserved : ReservedZero (State.resetWith c).regs := by constructor <;> exact BitVec.zero_and
  have hwidths : WidthsFit (State.resetWith c) := ⟨Nat.two_pow_pos _, Nat.two_pow_pos _, nofun, nofun, nofun⟩
  exact ⟨State.resetWith_mem_wf c, hmaster, hslave, hlatches, hreserved, hwidths⟩

theorem Regs.raiseErr_err (g : Regs) (j k : ErrFlag) :
    (g.raiseErr k).err j = if j = k then true else g.err j := by
  have hk : k.index < 8 := Nat.lt_of_lt_of_le (ErrFlag.index_lt k) (by decide)
  simp only [Regs.raiseErr, Regs.err, getLsbD_putBit _ _ _ _ hk, ErrFlag.index_inj]

/-- A conforming `MATCH` answers the own address (10_state.md R35). -/
theorem envGuard_matched {d : BitVec 1} {s : State} (h : envGuard (.matched d) s = true) :
    s.env.called = some s.regs.ownAddr := by
  simp only [envGuard, Bool.and_eq_true, beq_iff_eq] at h
  exact h.2

theorem execEnvErr_err (s : State) (k : ErrFlag) :
    ∃ t, exec (.envErr k) s = .next t ∧ (∀ j, t.regs.err j = if j = k then true else s.regs.err j) ∧
      t.regs = { s.regs with
        sr2 := t.regs.sr2, sr3 := if k = .arlo then putBit s.regs.sr3 0 false else s.regs.sr3 } ∧
      t.ctx = s.ctx ∧ Appends .env [.wire (.err k)] s t := by
  refine ⟨_, rfl, fun j => ?_, ?_, rfl, rfl⟩
  · rw [← Regs.raiseErr_err, State.onWire_regs]
    dsimp only
    split_ifs <;> rfl
  · rw [State.onWire_regs]
    dsimp only
    split_ifs <;> rfl

/-- Settles O43: the moves' register changes, the guard's last condition, and one error flag raised. -/
theorem matchAndErrorMoves : Obligations.MatchAndErrorMoves := by
  unfold Obligations.MatchAndErrorMoves
  refine fun s => ⟨fun d => ⟨_, rfl, ?_, rfl⟩, fun d => envGuard_matched, fun k => ?_⟩
  · cases d <;> rfl
  · obtain ⟨t, ht, herr, hregs, hctx, htrace⟩ := execEnvErr_err s k
    exact ⟨t, ht, by simp [herr], fun j hj => by simp [herr, hj], hregs, by rw [hctx], htrace⟩

end Sys2Proof.Machine
end

section
/-!
What an operation does to the caller's memory, said once (20_memory.md R68): it is kept, or a receive arm stores the
element at the cursor. The fetch of a turn keeps its form (R61): a turn stores one byte at most, the caller's own.
-/

namespace Sys2Proof.Machine

/-- The memory is `m`. -/
def HasMem (m : Memory) (s : State) : Prop := s.mem = m

@[simp] theorem hasMem_iff {m : Memory} {s : State} : HasMem m s ↔ s.mem = m := Iff.rfl

/-- What the operation `i` does to the memory of `s`: nothing, or a receive arm stores the element at the cursor. -/
inductive MemoryEffect (s t : State) : Instr → Prop
  | kept (i : Instr) (hmem : t.mem = s.mem) : MemoryEffect s t i
  | masterStored (base n : Nat) (v : Byte) (hbuffer : s.ctx.masterBuffer = some base)
      (hlength : s.ctx.masterLength = some n) (hlt : s.ctx.cursor < n)
      (hmem : t.mem = s.mem.write (base + s.ctx.cursor) v) : MemoryEffect s t .mRx
  | slaveStored (base : Nat) (v : Byte) (hbuffer : s.ctx.slaveBuffer = some base)
      (hlt : s.ctx.cursor < s.ctx.slaveLength) (hmem : t.mem = s.mem.write (base + s.ctx.cursor) v) :
      MemoryEffect s t .sRx

/-! ### The arms that have parts -/

section
variable {m : Memory} {s u : State}

@[simp] theorem armStep_mem (d : Direction) (p : Addr7) (b n : Nat) (s : State) : (armStep d p b n s).mem = s.mem := by
  unfold armStep
  split
  · rfl
  · simp [armSpin]
  · simp [armIssue]

theorem mTxCompletion_keeps_mem (n : Nat) (h : u.mem = m) : EveryNext (HasMem m) (mTxCompletion n u) := by
  unfold mTxCompletion
  split
  · exact everyNext_needField (by simp [h]) fun base _ => by simp [h]
  · simp [h]

theorem mRxCompletion_keeps_mem (n : Nat) (h : u.mem = m) : EveryNext (HasMem m) (mRxCompletion n u) := by
  unfold mRxCompletion
  split
  · exact everyNext_needField (by simp [h]) fun base _ => by simp [mRxEnd, h]
  · split <;> simp [mRxEnd, h]

theorem execMStart_keeps_mem (s : State) : EveryNext (HasMem s.mem) (execMStart s) := by
  refine everyNext_needField (by simp) fun p _ => ?_
  exact everyNext_needField (by simp) fun d _ => by simp

theorem execMTx_keeps_mem (s : State) : EveryNext (HasMem s.mem) (execMTx s) := by
  refine everyNext_needField (by simp) fun n _ => ?_
  split
  · refine everyNext_needField (by simp) fun base _ => ?_
    exact everyNext_memRead (by simp) fun _ => mTxCompletion_keeps_mem n (by simp)
  · exact mTxCompletion_keeps_mem n rfl

theorem execSTx_keeps_mem (s : State) : EveryNext (HasMem s.mem) (execSTx s) := by
  unfold execSTx
  dsimp only
  split
  · refine everyNext_needField (by simp) fun base _ => ?_
    refine everyNext_memRead (by simp) fun _ => everyNext_next.2 ?_
    split <;> simp
  · simp

theorem execMRx_memory (s : State) : EveryNext (MemoryEffect s · .mRx) (execMRx s) := by
  refine everyNext_needField (fun _ => .kept _ (by simp)) fun n hn => ?_
  split
  case isTrue hlt =>
    refine everyNext_needField (fun _ => .kept _ (by simp)) fun base hbase => ?_
    refine everyNext_memWrite (fun _ => .kept _ (by simp)) fun _ t ht => ?_
    exact .masterStored base n (s.regVal .dr) (by simpa using hbase) (by simpa using hn) (by simpa using hlt)
      (mRxCompletion_keeps_mem n (by simp) t ht)
  case isFalse => exact fun t ht => .kept _ (mRxCompletion_keeps_mem n (by simp) t ht)

theorem execSRx_memory (s : State) : EveryNext (MemoryEffect s · .sRx) (execSRx s) := by
  unfold execSRx
  dsimp only
  split
  case isTrue hlt =>
    refine everyNext_needField (fun _ => .kept _ (by simp)) fun base hbase => ?_
    refine everyNext_memWrite (fun _ => .kept _ (by simp)) fun _ => everyNext_next.2 ?_
    refine .slaveStored base (s.regVal .dr) (by simpa using hbase) (by simpa using hlt) ?_
    split <;> simp
  case isFalse => exact everyNext_next.2 (.kept _ (by simp))

end

/-! ### Every operation -/

theorem exec_memory (i : Instr) (s : State) : EveryNext (MemoryEffect s · i) (exec i s) := by
  cases i with
  | mRx => exact execMRx_memory s
  | sRx => exact execSRx_memory s
  | mStart => exact fun t h => .kept _ (execMStart_keeps_mem s t h)
  | mTx => exact fun t h => .kept _ (execMTx_keeps_mem s t h)
  | sTx => exact fun t h => .kept _ (execSTx_keeps_mem s t h)
  | armWrite | armRead => exact everyNext_next.2 (.kept _ (armStep_mem _ _ _ _ s))
  | init | cfgSlave | mAddr | mTxUnexpected | mTxIdle | mRxIdle | sAddr | sIdle | epiErr | epiStop =>
    exact everyNext_next.2 (.kept _ (by simp))
  | envStartdone | envAddrack | envAddrnack | envTxack | envTxnack | envRxbyte | envStopdone | envBusstart | envMatch
  | envPeerstop | envErr => exact everyNext_next.2 (.kept _ rfl)

/-! ### The bytes an operation can change -/

/-- A byte depends on the memory alone. -/
theorem State.byteAt_congr {s t : State} (h : t.mem = s.mem) (a : Nat) : t.byteAt a = s.byteAt a := by
  rw [State.byteAt, State.byteAt, h]

/-- A byte changed by a store is the one at its address. -/
theorem eq_of_byteAt_ne {s t : State} {a b : Nat} {v : Byte} (h : t.mem = s.mem.write b v)
    (hne : t.byteAt a ≠ s.byteAt a) : a = b := by
  by_contra hab
  have hstored : t.byteAt a = (s.storeByte b v).byteAt a := State.byteAt_congr h a
  exact hne (hstored.trans (State.byteAt_storeByte_other s b a v hab))

/-- Settles O47: of the effects on memory, only the two stores change a byte, the one at the element's address. -/
theorem memoryWriters : Obligations.MemoryWriters := by
  unfold Obligations.MemoryWriters
  intro i s t a h hne
  cases exec_memory i s t h with
  | kept _ hmem => exact absurd (State.byteAt_congr hmem a) hne
  | masterStored base n v hbuffer hlength hlt hmem =>
    exact .inl ⟨rfl, base, n, hbuffer, hlength, hlt, eq_of_byteAt_ne hmem hne⟩
  | slaveStored base v hbuffer hlt hmem => exact .inr ⟨rfl, base, hbuffer, hlt, eq_of_byteAt_ne hmem hne⟩

/-! ### The canonical form (20_memory.md R61) -/

/-- The memory of the state has the canonical form. -/
def CanonicalMem (s : State) : Prop := s.mem.wf

theorem CanonicalMem.of_mem_eq {s t : State} (hs : CanonicalMem s) (h : t.mem = s.mem) : CanonicalMem t := by
  rwa [CanonicalMem, h]

theorem CanonicalMem.of_mem_write {s t : State} {a : Nat} {v : Byte} (hs : CanonicalMem s)
    (h : t.mem = s.mem.write a v) : CanonicalMem t := by
  rw [CanonicalMem, h]
  exact Memory.write_wf _ _ _ hs

theorem exec_keeps_canonicalMem (i : Instr) (s : State) (hs : CanonicalMem s) : EveryNext CanonicalMem (exec i s) := by
  intro t h
  cases exec_memory i s t h with
  | kept _ hmem => exact hs.of_mem_eq hmem
  | masterStored base n v _ _ _ hmem => exact hs.of_mem_write hmem
  | slaveStored base v _ _ hmem => exact hs.of_mem_write hmem

theorem notDecoded_keeps_canonicalMem (e : DecodeError) (s : State) (hs : CanonicalMem s) :
    EveryNext CanonicalMem (notDecoded e s) := by
  cases e <;> exact everyNext_next.2 (hs.of_mem_eq (by simp))

section
variable {s : State} (hs : CanonicalMem s)
include hs

theorem fetchBranch_keeps_canonicalMem : (fetchBranch s).Carries CanonicalMem := by
  have hread : CanonicalMem (s.readScratch .dispatch .sr1) := hs.of_mem_eq (by simp)
  unfold fetchBranch
  dsimp only
  split
  · exact hread
  · split
    · exact hread
    · exact everyNext_raiseFault _ fun _ => hread

theorem engineTurn_keeps_canonicalMem : (engineTurn s).Carries CanonicalMem := by
  unfold engineTurn
  cases s.eng with
  | idle => exact everyNext_next.2 (hs.of_mem_eq (by split <;> rfl))
  | branch => exact fetchBranch_keeps_canonicalMem hs
  | epiErr | epiStop => exact hs.of_mem_eq (by simp)

theorem background_keeps_canonicalMem : (background s).Carries CanonicalMem := by
  unfold background
  split
  · exact engineTurn_keeps_canonicalMem hs
  · split
    · exact hs
    · exact everyNext_next.2 hs

theorem callerStore_keeps_canonicalMem (a : Nat) (v : Byte) : EveryNext CanonicalMem (callerStore a v s) := by
  unfold callerStore
  split
  · exact everyNext_next.2 (hs.of_mem_write rfl)
  · exact everyNext_fault _

theorem fetch_keeps_canonicalMem : (fetch s).Carries CanonicalMem := by
  unfold fetch
  cases s.turns with
  | nil => exact background_keeps_canonicalMem hs
  | cons turn ts =>
    have hpopped : CanonicalMem { s with turns := ts } := hs
    cases turn with
    | command w =>
      dsimp only
      split
      · exact hpopped
      · exact background_keeps_canonicalMem hs
    | caller =>
      dsimp only
      split
      · exact engineTurn_keeps_canonicalMem hs
      · split
        · exact hpopped
        · exact everyNext_next.2 hpopped
    | store a v =>
      dsimp only
      split
      · exact callerStore_keeps_canonicalMem hpopped a v
      · exact background_keeps_canonicalMem hs
    | engine => exact engineTurn_keeps_canonicalMem hpopped
    | env m => exact hpopped
    | called a => exact everyNext_next.2 hpopped
    | callback b => exact everyNext_next.2 (hpopped.of_mem_eq (by unfold State.runBody; split <;> rfl))

end

/-- Settles O52: a turn stores at most the caller's byte and an operation at most the element it receives, and a write
keeps the form. -/
theorem memoryCanonicalKept : Obligations.MemoryCanonicalKept := by
  unfold Obligations.MemoryCanonicalKept
  exact fun s t hs => everyNext_step (fetch_keeps_canonicalMem hs) exec_keeps_canonicalMem
    notDecoded_keeps_canonicalMem t

end Sys2Proof.Machine
end

section
/-!
Where a buffer arm below its length ends at its element (20_memory.md R68, R69): the four arms all reach `base + cursor`
first, so the address wraps, or the agent is stuck, in the same way for each.
-/

namespace Sys2Proof.Machine

/-- The operation `i` in `s` comes, in the state `u`, to the element at `base + cursor`, and goes on only from there. -/
def ComesToElement (i : Instr) (s u : State) (base : Nat) : Prop :=
  u.cfg = s.cfg ∧ u.fault = s.fault ∧ ∃ k, exec i s = atElement base s.ctx.cursor u k

section
variable {i : Instr} {s u : State} {base n : Nat}

/-! ### The four arms -/

theorem execMTx_comesToElement (hbuffer : s.ctx.masterBuffer = some base) (hlength : s.ctx.masterLength = some n)
    (hlt : s.ctx.cursor < n) : ComesToElement .mTx s s base :=
  ⟨rfl, rfl, _, by
    simp only [exec, execMTx, hlength, hbuffer, needField_some]
    exact if_pos hlt⟩

/-- The byte delivered is read first. -/
theorem execMRx_comesToElement (hbuffer : s.ctx.masterBuffer = some base) (hlength : s.ctx.masterLength = some n)
    (hlt : s.ctx.cursor < n) : ComesToElement .mRx s (s.afterRead (.arm .mRx) .dr) base :=
  ⟨by simp, by simp, _, by
    simp only [exec, execMRx, State.afterRead_ctx, hlength, hbuffer, needField_some]
    exact if_pos hlt⟩

theorem execSTx_comesToElement (hbuffer : s.ctx.slaveBuffer = some base) (hlt : s.ctx.cursor < s.ctx.slaveLength) :
    ComesToElement .sTx s s base :=
  ⟨rfl, rfl, _, by
    simp only [exec, execSTx, hbuffer, needField_some]
    exact if_pos hlt⟩

/-- The byte delivered is read first. -/
theorem execSRx_comesToElement (hbuffer : s.ctx.slaveBuffer = some base) (hlt : s.ctx.cursor < s.ctx.slaveLength) :
    ComesToElement .sRx s (s.afterRead (.arm .sRx) .dr) base :=
  ⟨by simp, by simp, _, by
    simp only [exec, execSRx, State.afterRead_ctx, hbuffer, needField_some]
    exact if_pos hlt⟩

/-! ### The two ends -/

/-- Beyond the address space the fault is recorded, and the memory and the registers stay as the arm came to the
element. -/
theorem ComesToElement.wraps (h : ComesToElement i s u base) (hfault : s.fault = none)
    (hwrap : s.cfg.addrSpan ≤ base + s.ctx.cursor) :
    ∃ t, exec i s = .next t ∧ t.fault = some .addressWrap ∧ t.mem = u.mem ∧ t.regs = u.regs := by
  obtain ⟨hcfg, hu, k, hk⟩ := h
  rw [hk, atElement_wrap k (hcfg ▸ hwrap), raiseFault_none (hu.trans hfault)]
  exact ⟨_, rfl, rfl, rfl, rfl⟩

/-- An address in no region of the launch memory is not held. -/
theorem hasAddr_eq_false {a : Nat} (h : ∀ r ∈ s.cfg.launch, a < r.base ∨ r.base + r.size ≤ a) :
    s.hasAddr a = false := by
  simp only [State.hasAddr, Bool.and_eq_false_imp, List.any_eq_false, regionHolds, Bool.and_eq_true, decide_eq_true_eq]
  intro _ r hr
  have hout := h r hr
  omega

/-- Inside the address space but outside the launch memory the agent is stuck. -/
theorem ComesToElement.stuck (h : ComesToElement i s u base) (hspan : base + s.ctx.cursor < s.cfg.addrSpan)
    (hout : ∀ r ∈ s.cfg.launch, base + s.ctx.cursor < r.base ∨ r.base + r.size ≤ base + s.ctx.cursor) :
    exec i s = .fault .stuck := by
  obtain ⟨hcfg, -, k, hk⟩ := h
  rw [hk]
  exact atElement_stuck k (hcfg ▸ hspan) (hasAddr_eq_false (hcfg ▸ hout))

end

/-- Settles O33: each arm comes to an element beyond the address space. -/
theorem addressWrapFaults : Obligations.AddressWrapFaults := by
  unfold Obligations.AddressWrapFaults
  intro s base hfault hwrap
  refine ⟨fun n hbuffer hlength hlt => ⟨?_, ?_⟩, fun hbuffer hlt => ⟨?_, ?_⟩⟩
  · exact (execMTx_comesToElement hbuffer hlength hlt).wraps hfault hwrap
  · obtain ⟨t, ht, htfault, htmem, -⟩ := (execMRx_comesToElement hbuffer hlength hlt).wraps hfault hwrap
    exact ⟨t, ht, htfault, by simpa using htmem⟩
  · exact (execSTx_comesToElement hbuffer hlt).wraps hfault hwrap
  · obtain ⟨t, ht, htfault, htmem, -⟩ := (execSRx_comesToElement hbuffer hlt).wraps hfault hwrap
    exact ⟨t, ht, htfault, by simpa using htmem⟩

/-- Settles O34: each arm comes to an element in no region of the launch memory. -/
theorem outsideLaunchStuck : Obligations.OutsideLaunchStuck := by
  unfold Obligations.OutsideLaunchStuck
  intro s base hspan hout
  refine ⟨fun n hbuffer hlength hlt => ⟨?_, ?_⟩, fun hbuffer hlt => ⟨?_, ?_⟩⟩
  · exact (execMTx_comesToElement hbuffer hlength hlt).stuck hspan hout
  · exact (execMRx_comesToElement hbuffer hlength hlt).stuck hspan hout
  · exact (execSTx_comesToElement hbuffer hlt).stuck hspan hout
  · exact (execSRx_comesToElement hbuffer hlt).stuck hspan hout

end Sys2Proof.Machine
end

section
/-!
The encodings (30_encoding.md R80 to R93): the command decoder, one equation per opcode, the dispatch table as the
decision tree of R87, and the way back from the code of an operation.
-/

namespace Sys2Proof.Machine

/-! ### The command word -/

section
variable {c : Config} {w : CmdWord}

/-- Operands of which one is wider than its field are refused (30_encoding.md R91). -/
theorem decodeOperands_refused (make : Addr7 → Nat → Nat → Instr)
    (h : ¬ (w.addr < 128 ∧ c.operandsFit w.buf w.len = true)) :
    decodeOperands c w make = .error .operandWidth := by
  by_cases haddr : w.addr < 128
  · have hfit : c.operandsFit w.buf w.len ≠ true := fun hfit => h ⟨haddr, hfit⟩
    simp [decodeOperands, decodeAddr7, haddr, hfit]
  · simp [decodeOperands, decodeAddr7, haddr]

theorem decode_init (hop : w.op = 0b0001#4) : decode c (.cmd w) = .ok .init := by
  simp [decode, decodeCmd, hop]

theorem decode_cfgSlave (hop : w.op = 0b0010#4) : decode c (.cmd w) = decodeOperands c w .cfgSlave := by
  simp [decode, decodeCmd, hop]

/-- The opcodes of the arming commands are neither that of `INIT` nor that of `CFG_SLAVE` (30_encoding.md R89). -/
theorem arming_opcode : ∀ op : Nibble, op &&& 0b1110#4 = 0b0100#4 → op ≠ 0b0001#4 ∧ op ≠ 0b0010#4 := by decide

theorem decode_arming (hop : w.op &&& 0b1110#4 = 0b0100#4) :
    decode c (.cmd w) = decodeOperands c w (.arming (.ofBit (w.op.getLsbD 0))) := by
  obtain ⟨hinit, hcfg⟩ := arming_opcode w.op hop
  simp [decode, decodeCmd, hinit, hcfg, hop]

theorem decode_armWrite (hop : w.op = 0b0100#4) : decode c (.cmd w) = decodeOperands c w .armWrite := by
  rw [decode_arming (by rw [hop]; rfl), hop]
  rfl

theorem decode_armRead (hop : w.op = 0b0101#4) : decode c (.cmd w) = decodeOperands c w .armRead := by
  rw [decode_arming (by rw [hop]; rfl), hop]
  rfl

theorem decode_reserved (hinit : w.op ≠ 0b0001#4) (hcfg : w.op ≠ 0b0010#4)
    (harming : w.op &&& 0b1110#4 ≠ 0b0100#4) : decode c (.cmd w) = .error (.reservedCommand w.op) := by
  simp [decode, decodeCmd, hinit, hcfg, harming]

end

/-- Settles O3: one equation of the decoder per opcode, and the two answers of the check of the operands. -/
theorem commandDecoding : Obligations.CommandDecoding := by
  unfold Obligations.CommandDecoding
  intro c w fits a
  have hfits : fits ↔ w.addr < 128 ∧ c.operandsFit w.buf w.len = true := and_congr_right' operandsFit_iff.symm
  have hok (make) (h : fits) : decodeOperands c w make = .ok (make a w.buf w.len) :=
    decodeOperands_eq make (hfits.1 h).1 (hfits.1 h).2
  have hwide (make) (h : ¬ fits) : decodeOperands c w make = .error .operandWidth :=
    decodeOperands_refused make (mt hfits.2 h)
  refine ⟨decode_init, fun hop h => (decode_cfgSlave hop).trans (hok _ h),
    fun hop h => (decode_armWrite hop).trans (hok _ h), fun hop h => (decode_armRead hop).trans (hok _ h), ?_,
    decode_reserved⟩
  rintro (hop | hop) h
  · exact (decode_cfgSlave hop).trans (hwide _ h)
  · exact (decode_arming hop).trans (hwide _ h)

/-! ### The dispatch word -/

/-- The table read as the decision tree of 30_encoding.md R87, over the bits `r d s a t x p` of the word. -/
theorem dispatchArm_eq_tree : ∀ w : DispatchWord, dispatchArm w =
    if w.getLsbD 6 then
      if w.getLsbD 4 then .mStart else if w.getLsbD 3 then .mAddr
      else if w.getLsbD 5 then if w.getLsbD 1 then .mRx else .mRxIdle
      else if w.getLsbD 2 then .mTx else if w.getLsbD 0 then .mTxIdle else .mTxUnexpected
    else if w.getLsbD 3 then .sAddr else if w.getLsbD 1 then .sRx else if w.getLsbD 2 then .sTx else .sIdle := by
  decide

/-- The sources of the seven bits (30_encoding.md R85). -/
theorem dispatchWord_bits (r : Role) (d : Direction) (g : Regs) :
    (dispatchWord r d g.sr1).getLsbD 6 = (r == .master) ∧
    (dispatchWord r d g.sr1).getLsbD 5 = (r == .master && d.bit) ∧
    (dispatchWord r d g.sr1).getLsbD 4 = g.sb ∧ (dispatchWord r d g.sr1).getLsbD 3 = g.addr ∧
    (dispatchWord r d g.sr1).getLsbD 2 = g.txe ∧ (dispatchWord r d g.sr1).getLsbD 1 = g.rxne ∧
    (dispatchWord r d g.sr1).getLsbD 0 = g.stopf := by
  simp only [dispatchWord, BitVec.getLsbD_append, BitVec.getLsbD_ofBool]
  and_intros <;> rfl

/-- Settles O4: the decision tree of the table, taken at the sources of its bits. -/
theorem dispatchPriority : Obligations.DispatchPriority := by
  unfold Obligations.DispatchPriority
  intro r d g
  obtain ⟨hr, hd, hs, ha, ht, hx, hp⟩ := dispatchWord_bits r d g
  rw [dispatchArm_eq_tree, hr, hd, hs, ha, ht, hx, hp]
  cases r with
  | slave => rfl
  | master => cases d <;> rfl

/-! ### The way back from the code of an operation -/

/-- An encoded command's operands are the ones checked. -/
theorem decodeOperands_encoded {c : Config} (make : Addr7 → Nat → Nat → Instr) (op : Nibble) (a : Addr7)
    {buffer count : Nat} (h : c.operandsFit buffer count = true) :
    decodeOperands c ⟨op, a.toNat, buffer, count⟩ make = .ok (make a buffer count) := by
  rw [decodeOperands_eq make a.isLt h, BitVec.ofNat_toNat, BitVec.setWidth_eq]

/-- The match value of a row is selected by that row and by none before it (30_encoding.md R86, R87). -/
theorem dispatchArm_pattern : ∀ r ∈ dispatchTable, dispatchArm r.pattern = r.arm := by decide

/-- An arm is encoded by the match value of its row. -/
theorem encode_arm (a : Arm) : ∃ r ∈ dispatchTable, r.arm = a ∧ encode a.instr = .dispatch r.pattern := by
  cases a <;> decide

theorem decode_encode_arm (c : Config) (a : Arm) : decode c (encode a.instr) = .ok a.instr := by
  obtain ⟨r, hr, rfl, hcode⟩ := encode_arm a
  rw [hcode, decode, dispatchArm_pattern r hr]

theorem decode_encode_epiErr (c : Config) {e : Nibble} (he : (Instr.epiErr e).wellFormed c = true) :
    decode c (encode (.epiErr e)) = .ok (.epiErr e) := by
  have hne : e ≠ 0#4 := bne_iff_ne.1 he
  exact if_neg hne

/-- An error flag is found again from its bit index (30_encoding.md R83). -/
theorem ErrFlag.ofBits_index (k : ErrFlag) : ErrFlag.ofBits (BitVec.ofNat 2 k.index) = k := by cases k <;> rfl

/-- Settles O1, by the format of the operation's code: a command's operands pass the check, an arm's code is the match
value of its row, a selector selects its arm, and the operand of an environment line is read back. -/
theorem decodeEncode : Obligations.DecodeEncode := by
  unfold Obligations.DecodeEncode
  intro c i hwf
  cases i with
  | init => rfl
  | cfgSlave a b n => exact (decode_cfgSlave rfl).trans (decodeOperands_encoded _ _ a hwf)
  | armWrite a b n => exact (decode_armWrite rfl).trans (decodeOperands_encoded _ _ a hwf)
  | armRead a b n => exact (decode_armRead rfl).trans (decodeOperands_encoded _ _ a hwf)
  | mStart => exact decode_encode_arm c .mStart
  | mAddr => exact decode_encode_arm c .mAddr
  | mTx => exact decode_encode_arm c .mTx
  | mTxUnexpected => exact decode_encode_arm c .mTxUnexpected
  | mTxIdle => exact decode_encode_arm c .mTxIdle
  | mRx => exact decode_encode_arm c .mRx
  | mRxIdle => exact decode_encode_arm c .mRxIdle
  | sAddr => exact decode_encode_arm c .sAddr
  | sRx => exact decode_encode_arm c .sRx
  | sTx => exact decode_encode_arm c .sTx
  | sIdle => exact decode_encode_arm c .sIdle
  | epiErr e => exact decode_encode_epiErr c hwf
  | epiStop => rfl
  | envStopdone f => exact congrArg (fun b => Except.ok (Instr.envStopdone b)) (BitVec.getLsbD_ofBool f 0)
  | envMatch d => exact congrArg (fun b => Except.ok (Instr.envMatch b)) (BitVec.getLsbD_ofBool d 0)
  | envErr k => exact congrArg (fun k => Except.ok (Instr.envErr k)) (ErrFlag.ofBits_index k)
  | envStartdone | envAddrack | envAddrnack | envTxack | envTxnack | envRxbyte b | envBusstart | envPeerstop => rfl

/-! ### Words of the spec -/

/-- At the smallest widths the spec asks for, operands of two bytes and of one fit. -/
theorem operandsFit_of_widths {c : Config} {buffer count : Nat} (hlen : 8 ≤ c.lenBits) (haddr : 16 ≤ c.addrBits)
    (hbuffer : buffer < 2 ^ 16) (hcount : count < 2 ^ 8) : c.operandsFit buffer count = true :=
  operandsFit_iff.2 ⟨hbuffer.trans_le (Nat.pow_le_pow_right Nat.two_pos haddr),
    hcount.trans_le (Nat.pow_le_pow_right Nat.two_pos hlen)⟩

/-- Settles O2: the operands of the two commands fit, the other words are looked up. -/
theorem decodeSpecWords : Obligations.DecodeSpecWords := by
  unfold Obligations.DecodeSpecWords
  intro c hlen haddr
  have hcfg : c.operandsFit 0x2000 4 = true := operandsFit_of_widths hlen haddr (by decide) (by decide)
  have hread : c.operandsFit 0x1000 2 = true := operandsFit_of_widths hlen haddr (by decide) (by decide)
  refine ⟨(decode_cfgSlave rfl).trans (decodeOperands_encoded _ _ 0x20#7 hcfg),
    (decode_armRead rfl).trans (decodeOperands_encoded _ _ 0x50#7 hread), ?_⟩
  and_intros <;> rfl

end Sys2Proof.Machine
end

section
/-!
The host commands as exact next states (40_host_commands.md R102 to R111): what `INIT` and `CFG_SLAVE` write, and the
three phases of an arming command, each with one argument for both directions.
-/

namespace Sys2Proof.Machine

/-! ### The bytes the commands write -/

/-- An own-address byte is stored whole: its bit 0, which `OAR` does not implement, is 0 (10_state.md R35). -/
@[simp] theorem ownAddr_and_mask (a : Addr7) : (a ++ 0#1 : Byte) &&& 0xFE#8 = a ++ 0#1 := by
  have hmask : 0xFE#8 = BitVec.allOnes 7 ++ 0#1 := rfl
  rw [hmask, BitVec.and_append, BitVec.and_allOnes, BitVec.and_self]

/-- `PE` is the one bit `CR1` implements, so setting it in what a read of `CR1` returns gives the whole byte
(10_state.md R32). -/
@[simp] theorem putBit_pe (v : Byte) : putBit (v &&& 0x01#8) 0 true = 0x01#8 := by
  apply BitVec.eq_of_getLsbD_eq
  intro j hj
  rw [getLsbD_putBit _ _ _ _ (by decide)]
  cases j with
  | zero => rfl
  | succ j => simp

/-- A field of `CR2` set in what a read of `CR2` returns is stored as it is (10_state.md R33). -/
theorem putBit_cr2_and_mask (v : Byte) (k : Nat) (b : Bool) (hk : k < 8) (himpl : (0x07#8).getLsbD k = true) :
    putBit (v &&& 0x07#8) k b &&& 0x07#8 = putBit (v &&& 0x07#8) k b := by
  rw [putBit_and_mask _ _ _ _ hk himpl, and_mask_mask]

/-- `BUSY` is implemented, so a read of `SR3` returns it (10_state.md R39). -/
theorem State.regVal_sr3_busy (s : State) : (s.regVal .sr3).getLsbD 1 = s.regs.busy := by
  simp [Regs.busy]

/-! ### Frames -/

theorem SameMemory.of_mem_eq {s t : State} (h : t.mem = s.mem) : SameMemory s t := State.byteAt_congr h

/-! ### `INIT` and `CFG_SLAVE` -/

/-- Settles O14, by the rule of each of the seven writes: an own-address byte and `PE` pass their registers' masks, and
no write touches anything outside the registers and the trace. -/
theorem initResult : Obligations.InitResult := by
  unfold Obligations.InitResult
  intro s
  refine ⟨_, rfl, ?regs, ?events, ?frame⟩
  case regs => simp [State.writeBit, ownAddrByte]
  case events => simp [Appends, State.writeBit, ownAddrByte]
  case frame => simp [State.writeBit, SameMemory.of_mem_eq, SameRest]

/-- Settles O15, by the rules of the `OAR` write and of setting `ACK`, which alone can clear `STOPF` (log 20). -/
theorem cfgSlaveResult : Obligations.CfgSlaveResult := by
  unfold Obligations.CfgSlaveResult
  intro s a buffer capacity
  refine ⟨_, rfl, ?regs, ?ctx, ?events, ?frame⟩
  case regs => simp [sr1AfterCr2, ownAddrByte]
  case ctx => simp
  case events => simp [Appends, ownAddrByte]
  case frame => simp [SameMemory.of_mem_eq, SameRest]

/-! ### Arming -/

/-- The two arming commands are one, by direction. -/
theorem exec_arming (d : Direction) (peer : Addr7) (buffer length : Nat) (s : State) :
    exec (.arming d peer buffer length) s = .next (armStep d peer buffer length s) := by
  cases d <;> rfl

/-- An arming command with its name is the command of one direction with that direction's tag. -/
theorem arming_of_command {i : Instr} {k : Command} {peer : Addr7} {buffer length : Nat}
    (h : (i = .armWrite peer buffer length ∧ k = .armWrite) ∨ (i = .armRead peer buffer length ∧ k = .armRead)) :
    ∃ d, i = .arming d peer buffer length ∧ Tag.command k = armTag d := by
  obtain ⟨rfl, rfl⟩ | ⟨rfl, rfl⟩ := h
  · exact ⟨.write, rfl, rfl⟩
  · exact ⟨.read, rfl, rfl⟩

section
variable {s : State} {d : Direction} {peer : Addr7} {buffer length : Nat}

theorem armStep_ready (h : s.call = .ready) :
    armStep d peer buffer length s = armRecord d peer buffer length s := by simp [armStep, h]

theorem armStep_armWait (h : s.call = .armWait) : armStep d peer buffer length s = armSpin d s := by
  simp [armStep, h]

theorem armStep_armIssue (h : s.call = .armIssue) : armStep d peer buffer length s = armIssue d s := by
  simp [armStep, h]

end

/-- Settles O16: in `Ready`, each direction's step is `armRecord`, the recording alone. -/
theorem armRecords : Obligations.ArmRecords := by
  unfold Obligations.ArmRecords
  intro s peer buffer length hcall
  have hphase (d : Direction) :
      exec (.arming d peer buffer length) s = .next (armRecord d peer buffer length s) := by
    rw [exec_arming, armStep_ready hcall]
  exact ⟨hphase .write, hphase .read⟩

/-- Settles O17: in `ArmWait`, either command's step is `armSpin`, one read of `SR3` into the scratch; its effect is
that of the read, and `BUSY` in the value read is the register's. -/
theorem armSpins : Obligations.ArmSpins := by
  unfold Obligations.ArmSpins
  intro s i k peer buffer length hcall hi
  obtain ⟨d, rfl, htag⟩ := arming_of_command hi
  refine ⟨armSpin d s, by rw [exec_arming, armStep_armWait hcall], ?call, ?ctx, ?regs, ?seq, ?events, ?frame⟩
  case call => simp only [armSpin, State.regVal_sr3_busy]
  case ctx => simp [armSpin]
  case regs =>
    simp only [armSpin, State.readScratch_regs, State.afterRead_sr3_regs, Regs.setAddr]
    split <;> rfl
  case seq => simp [armSpin]
  case events => simp [armSpin, Appends, htag]
  case frame => simp [armSpin, SameMemory.of_mem_eq, SameRest]

/-- Settles O18: in `ArmIssue`, either command's step is `armIssue`, two writes of `CR2`. The second finds `ACK` as the
first has set it (`hack`) and no latch armed any more, so it adds `START` and clears nothing. -/
theorem armIssues : Obligations.ArmIssues := by
  unfold Obligations.ArmIssues
  intro s i k peer buffer length hcall hi
  obtain ⟨d, rfl, htag⟩ := arming_of_command hi
  have hack : putBit (s.regs.cr2 &&& 0x07#8) 2 true &&& 0x07#8 = putBit (s.regs.cr2 &&& 0x07#8) 2 true :=
    putBit_cr2_and_mask _ _ _ (by decide) (by decide)
  refine ⟨armIssue d s, by rw [exec_arming, armStep_armIssue hcall], rfl, ?ctx, ?regs, ?seq, ?events, ?frame⟩
  case ctx => simp [armIssue]
  case regs => simp [armIssue, hack, sr1AfterCr2]
  case seq => simp [armIssue]
  case events => simp [armIssue, Appends, htag, hack]
  case frame => simp [armIssue, SameMemory.of_mem_eq, SameRest]

end Sys2Proof.Machine
end

section
/-!
No step reads an unwritten field (00_scope.md R15, 41_master_branch.md R131): which turns a step can take, said once;
which operations read a field of the master transfer, and that only a dispatch word formed in Master role selects
them; and that each operation finds the fields it reads.
-/

namespace Sys2Proof.Machine

/-! ### Taking a turn -/

/-- What a turn taken from `s` can be: one of the engine, a command or a move, the arming command under way, or nothing
to run. -/
inductive TurnKind (s : State) : Fetched → Prop
  | engine (ts : List Turn) : TurnKind s (engineTurn { s with turns := ts })
  | code (c : Code) (ts : List Turn) (hc : ∀ w, c ≠ .dispatch w) : TurnKind s (.code c { s with turns := ts })
  | resume (ts : List Turn) : TurnKind s (.resume (armingUnderWay s) { s with turns := ts })
  | quiet (t : State) (hfault : t.fault = s.fault) : TurnKind s (.quiet (.next t))
  | stuck : TurnKind s (.quiet (.fault .stuck))

section
variable (s : State)

theorem background_turnKind : TurnKind s (background s) := by
  unfold background
  split
  · exact .engine s.turns
  · split
    · exact .resume s.turns
    · exact .quiet s rfl

theorem runBody_fault (b : CallbackBody) : (s.runBody b).fault = s.fault := by
  unfold State.runBody
  split <;> rfl

theorem fetch_turnKind : TurnKind s (fetch s) := by
  unfold fetch
  split
  case h_1 => exact background_turnKind s
  case h_2 m ts _ => exact .code _ ts nofun
  case h_3 ts _ => exact .engine ts
  case h_4 a ts _ => exact .quiet _ rfl
  case h_5 b ts _ => exact .quiet _ (runBody_fault _ b)
  case h_6 w ts _ =>
    split
    · exact .code _ ts nofun
    · exact background_turnKind s
  case h_7 a v ts _ =>
    split
    · unfold callerStore
      split
      · exact .quiet _ rfl
      · exact .stuck
    · exact background_turnKind s
  case h_8 ts _ =>
    split
    · exact .engine s.turns
    · split
      · exact .resume ts
      · exact .quiet _ rfl

end

/-! ### Which operations read the transfer's fields -/

/-- The operations that read the peer address, the direction, the buffer or the length of the master transfer
(41_master_branch.md R131, R134, R139). -/
def readsTransfer : Instr → Bool
  | .mStart | .mTx | .mRx => true
  | _ => false

/-- A dispatch word that selects one of them has the bit `r` set (30_encoding.md R86). -/
theorem dispatchArm_readsTransfer :
    ∀ w : DispatchWord, readsTransfer (dispatchArm w).instr = true → w.getLsbD 6 = true := by decide

theorem arming_readsTransfer (d : Direction) (p : Addr7) (b n : Nat) :
    readsTransfer (.arming d p b n) = false := by cases d <;> rfl

/-- Only a dispatch word selects one of them. -/
theorem decode_readsTransfer {c : Config} {code : Code} {i : Instr} (h : decode c code = .ok i)
    (hi : readsTransfer i = true) : ∃ w, code = .dispatch w ∧ w.getLsbD 6 = true := by
  cases code with
  | dispatch w =>
    cases h
    exact ⟨w, rfl, dispatchArm_readsTransfer w hi⟩
  | cmd w =>
    simp only [decode, decodeCmd] at h
    split_ifs at h
    · cases h; cases hi
    · obtain ⟨a, rfl, -⟩ := decodeOperands_ok h
      cases hi
    · obtain ⟨a, rfl, -⟩ := decodeOperands_ok h
      rw [arming_readsTransfer] at hi
      cases hi
  | epiErr e =>
    simp only [decode, decodeEpiErr] at h
    split_ifs at h
    cases h
    cases hi
  | epiStop v =>
    simp only [decode, decodeEpiStop] at h
    split_ifs at h
    cases h
    cases hi
  | env m => cases m <;> cases h <;> cases hi

/-! ### What a turn selects -/

/-- No unwritten field has been read (60_exceptions.md R216). -/
def NoUnwrittenFault (s : State) : Prop := s.fault ≠ some .unwrittenRead

/-- No unwritten field was read to select the operation, and a dispatch word with the bit `r` stands for Master role. -/
def Fetched.SelectsSafely : Fetched → Prop
  | .quiet o => EveryNext NoUnwrittenFault o
  | .code c t => NoUnwrittenFault t ∧ ∀ w, c = .dispatch w → w.getLsbD 6 = true → t.ctx.role = .master
  | .resume _ t => NoUnwrittenFault t

section
variable {s t : State}

theorem NoUnwrittenFault.of_fault_eq (hs : NoUnwrittenFault s) (h : t.fault = s.fault) : NoUnwrittenFault t := by
  rwa [NoUnwrittenFault, h]

/-- In Master role the direction is written, in Slave role it is not read and the bit `r` is 0 (30_encoding.md R85). -/
theorem fetchBranch_selectsSafely (hs : NoUnwrittenFault s) (hmaster : MasterArmed s) :
    (fetchBranch s).SelectsSafely := by
  have hread : NoUnwrittenFault (s.readScratch .dispatch .sr1) := hs.of_fault_eq (by simp)
  unfold fetchBranch
  dsimp only
  split
  case h_1 hrole =>
    refine ⟨hread, fun w hw hbit => ?_⟩
    cases hw
    rw [(dispatchWord_bits .slave .write { s.regs with sr1 := s.regVal .sr1 }).1] at hbit
    cases hbit
  case h_2 hrole =>
    split
    case h_1 => exact ⟨hread, fun _ _ _ => hrole⟩
    case h_2 hdir =>
      obtain ⟨hsome, -⟩ := hmaster hrole
      simp_all

theorem engineTurn_selectsSafely (hs : NoUnwrittenFault s) (hmaster : MasterArmed s) :
    (engineTurn s).SelectsSafely := by
  unfold engineTurn
  split
  case h_1 =>
    refine everyNext_next.2 (hs.of_fault_eq ?_)
    split <;> rfl
  case h_2 => exact fetchBranch_selectsSafely hs hmaster
  case h_3 => exact ⟨hs.of_fault_eq (by simp), nofun⟩
  case h_4 => exact ⟨hs.of_fault_eq (by simp), nofun⟩

theorem fetch_selectsSafely (hs : NoUnwrittenFault s) (hmaster : MasterArmed s) : (fetch s).SelectsSafely := by
  have hturn := fetch_turnKind s
  generalize fetch s = f at hturn
  cases hturn with
  | engine ts => exact engineTurn_selectsSafely hs hmaster
  | code c ts hc => exact ⟨hs, fun w hw => absurd hw (hc w)⟩
  | resume ts => exact hs
  | quiet t hfault => exact everyNext_next.2 (hs.of_fault_eq hfault)
  | stuck => exact everyNext_fault _

end

/-! ### What an operation reads -/

section
variable {s u : State}

/-- Reading a field that has been written goes on with its value. -/
theorem everyNext_needField_of_isSome {α : Type} {P : State → Prop} {f : Option α} {k : α → Result}
    (hf : f.isSome = true) (hk : ∀ v, EveryNext P (k v)) : EveryNext P (needField f s k) := by
  obtain ⟨v, rfl⟩ := Option.isSome_iff_exists.1 hf
  exact hk v

/-- An element reached records at most a wrap. -/
theorem NoUnwrittenFault.atElement {base cursor : Nat} {k : Nat → Result} (hs : NoUnwrittenFault s)
    (hk : ∀ a, EveryNext NoUnwrittenFault (k a)) : EveryNext NoUnwrittenFault (atElement base cursor s k) := by
  intro t ht
  obtain ⟨-, ht⟩ | ⟨-, rfl⟩ := atElement_next ht
  · exact hk _ t ht
  · cases hf : s.fault with
    | none => simp [NoUnwrittenFault]
    | some r => simpa [NoUnwrittenFault, hf] using hs

theorem armStep_fault (d : Direction) (p : Addr7) (b n : Nat) (s : State) : (armStep d p b n s).fault = s.fault := by
  unfold armStep
  split
  · rfl
  · simp [armSpin]
  · simp [armIssue]

theorem execMStart_noUnwrittenFault (hs : NoUnwrittenFault s) (hpeer : s.ctx.peerAddress.isSome)
    (hdir : s.ctx.direction.isSome) : EveryNext NoUnwrittenFault (execMStart s) := by
  refine everyNext_needField_of_isSome (by simpa using hpeer) fun p => ?_
  refine everyNext_needField_of_isSome (by simpa using hdir) fun d => ?_
  exact everyNext_next.2 (hs.of_fault_eq (by simp))

theorem mTxCompletion_noUnwrittenFault (n : Nat) (hu : NoUnwrittenFault u) (hbuffer : u.ctx.masterBuffer.isSome) :
    EveryNext NoUnwrittenFault (mTxCompletion n u) := by
  unfold mTxCompletion
  split
  · refine everyNext_needField_of_isSome (by simpa using hbuffer) fun base => ?_
    exact everyNext_next.2 (hu.of_fault_eq (by simp))
  · exact everyNext_next.2 hu

theorem execMTx_noUnwrittenFault (hs : NoUnwrittenFault s) (hbuffer : s.ctx.masterBuffer.isSome)
    (hlength : s.ctx.masterLength.isSome) : EveryNext NoUnwrittenFault (execMTx s) := by
  refine everyNext_needField_of_isSome hlength fun n => ?_
  split
  · refine everyNext_needField_of_isSome hbuffer fun base => hs.atElement fun a => ?_
    exact mTxCompletion_noUnwrittenFault n (hs.of_fault_eq (by simp)) (by simpa using hbuffer)
  · exact mTxCompletion_noUnwrittenFault n hs hbuffer

theorem mRxCompletion_noUnwrittenFault (n : Nat) (hu : NoUnwrittenFault u) (hbuffer : u.ctx.masterBuffer.isSome) :
    EveryNext NoUnwrittenFault (mRxCompletion n u) := by
  unfold mRxCompletion
  split
  · refine everyNext_needField_of_isSome (by simpa using hbuffer) fun base => ?_
    exact everyNext_next.2 (hu.of_fault_eq (by simp))
  · split
    · exact everyNext_next.2 (hu.of_fault_eq (by simp))
    · exact everyNext_next.2 hu

theorem execMRx_noUnwrittenFault (hs : NoUnwrittenFault s) (hbuffer : s.ctx.masterBuffer.isSome)
    (hlength : s.ctx.masterLength.isSome) : EveryNext NoUnwrittenFault (execMRx s) := by
  have hread : NoUnwrittenFault (s.afterRead (.arm .mRx) .dr) := hs.of_fault_eq (by simp)
  refine everyNext_needField_of_isSome (by simpa using hlength) fun n => ?_
  split
  · refine everyNext_needField_of_isSome (by simpa using hbuffer) fun base => hread.atElement fun a => ?_
    exact mRxCompletion_noUnwrittenFault n (hread.of_fault_eq (by simp)) (by simpa using hbuffer)
  · exact mRxCompletion_noUnwrittenFault n hread (by simpa using hbuffer)

/-- A cursor below the capacity has a buffer. -/
theorem SlaveConfigured.isSome (h : SlaveConfigured s) (hlt : s.ctx.cursor < s.ctx.slaveLength) :
    s.ctx.slaveBuffer.isSome = true := by
  rw [Option.isSome_iff_ne_none]
  intro hnone
  rw [h hnone] at hlt
  exact Nat.not_lt_zero _ hlt

theorem execSRx_noUnwrittenFault (hs : NoUnwrittenFault s) (hslave : SlaveConfigured s) :
    EveryNext NoUnwrittenFault (execSRx s) := by
  have hread : NoUnwrittenFault (s.afterRead (.arm .sRx) .dr) := hs.of_fault_eq (by simp)
  unfold execSRx
  dsimp only
  split
  case isTrue hlt =>
    refine everyNext_needField_of_isSome (by simpa using hslave.isSome (by simpa using hlt)) fun base => ?_
    refine hread.atElement fun a => everyNext_next.2 (hread.of_fault_eq ?_)
    split <;> simp
  case isFalse => exact everyNext_next.2 hread

theorem execSTx_noUnwrittenFault (hs : NoUnwrittenFault s) (hslave : SlaveConfigured s) :
    EveryNext NoUnwrittenFault (execSTx s) := by
  unfold execSTx
  dsimp only
  split
  case isTrue hlt =>
    refine everyNext_needField_of_isSome (hslave.isSome hlt) fun base => ?_
    refine hs.atElement fun a => everyNext_next.2 (hs.of_fault_eq ?_)
    split <;> simp
  case isFalse => exact everyNext_next.2 hs

/-- An operation finds every field it reads written, if it reads the transfer's fields in Master role only. -/
theorem exec_noUnwrittenFault (i : Instr) (hs : NoUnwrittenFault s) (hmaster : MasterArmed s)
    (hslave : SlaveConfigured s) (hrole : readsTransfer i = true → s.ctx.role = .master) :
    EveryNext NoUnwrittenFault (exec i s) := by
  cases i with
  | mStart =>
    obtain ⟨hdir, hpeer, -⟩ := hmaster (hrole rfl)
    exact execMStart_noUnwrittenFault hs hpeer hdir
  | mTx =>
    obtain ⟨-, -, hbuffer, n, hn, -⟩ := hmaster (hrole rfl)
    exact execMTx_noUnwrittenFault hs hbuffer (by simp [hn])
  | mRx =>
    obtain ⟨-, -, hbuffer, n, hn, -⟩ := hmaster (hrole rfl)
    exact execMRx_noUnwrittenFault hs hbuffer (by simp [hn])
  | sRx => exact execSRx_noUnwrittenFault hs hslave
  | sTx => exact execSTx_noUnwrittenFault hs hslave
  | armWrite | armRead => exact everyNext_next.2 (hs.of_fault_eq (armStep_fault _ _ _ _ s))
  | init | cfgSlave | mAddr | mTxUnexpected | mTxIdle | mRxIdle | sAddr | sIdle | epiErr | epiStop =>
    exact everyNext_next.2 (hs.of_fault_eq (by simp))
  | envStartdone | envAddrack | envAddrnack | envTxack | envTxnack | envRxbyte | envStopdone | envBusstart | envMatch
  | envPeerstop | envErr => exact everyNext_next.2 (hs.of_fault_eq rfl)

theorem notDecoded_noUnwrittenFault (e : DecodeError) (hs : NoUnwrittenFault s) :
    EveryNext NoUnwrittenFault (notDecoded e s) := by
  cases e <;> exact everyNext_next.2 (hs.of_fault_eq (by simp))

end

/-- Settles O54: the turn reads the direction in Master role only, where it is written; the arms that read the transfer
are selected in Master role only, where all of it is written; and a slave buffer is read below its capacity only. -/
theorem noUnwrittenRead : Obligations.NoUnwrittenRead := by
  unfold Obligations.NoUnwrittenRead
  intro s t hmaster hslave h
  have hfault := fault_none_of_step h
  rw [step_run hfault] at h
  have hframe := fetch_takesTurn s
  have hsafe := fetch_selectsSafely (by simp [NoUnwrittenFault, hfault]) hmaster
  generalize fetch s = f at h hframe hsafe
  obtain ⟨o, rfl, ho⟩ | ⟨i, u, rfl, hexec⟩ | ⟨c, u, i, rfl, hdec, hexec⟩ | ⟨c, u, e, rfl, -, hnone⟩ := run_next h
  · exact hsafe t ho
  · obtain ⟨hturn, rfl⟩ := hframe
    refine exec_noUnwrittenFault _ hsafe (hturn.keeps_masterArmed hmaster) (hturn.keeps_slaveConfigured hslave)
      (fun hi => ?_) t hexec
    rw [armingUnderWay, arming_readsTransfer] at hi
    cases hi
  · obtain ⟨hturn, -⟩ := hframe
    obtain ⟨hu, hrole⟩ := hsafe
    refine exec_noUnwrittenFault i hu (hturn.keeps_masterArmed hmaster) (hturn.keeps_slaveConfigured hslave)
      (fun hi => ?_) t hexec
    obtain ⟨w, rfl, hbit⟩ := decode_readsTransfer hdec hi
    exact hrole w rfl hbit
  · exact notDecoded_noUnwrittenFault e hsafe.1 t hnone

end Sys2Proof.Machine
end

section
/-!
The arms of the master branch as exact next states (41_master_branch.md R131 to R143): an equation of the arm for each
of its cases, over the model's own updates, and then the fields of the next state by the rules of those updates.
-/

namespace Sys2Proof.Machine

/-- Settles O24: each of these arms is its one update. -/
theorem idleArms : Obligations.IdleArms := by
  unfold Obligations.IdleArms
  exact fun s => ⟨rfl, rfl, rfl, rfl⟩

/-! ### `M_START` and `M_ADDR` -/

/-- The address byte by a shift: the direction is bit 0, below the peer address (30_encoding.md R81). -/
theorem addrByteOf_eq (peer : Addr7) (d : Direction) :
    addrByteOf peer d = (peer.setWidth 8 <<< 1) ||| (if d = .read then 1#8 else 0#8) := by
  apply BitVec.eq_of_getLsbD_eq
  intro j hj
  rw [addrByteOf, BitVec.getLsbD_append, BitVec.getLsbD_or, BitVec.getLsbD_shiftLeft]
  cases j with
  | zero => cases d <;> rfl
  | succ j => cases d <;> simp [hj] <;> omega

section
variable {s : State}

theorem execMStart_written {peer : Addr7} {d : Direction} (hpeer : s.ctx.peerAddress = some peer)
    (hdir : s.ctx.direction = some d) :
    exec .mStart s = .next ((s.readScratch (.arm .mStart) .sr1).writeReg (.arm .mStart) .dr
      (addrByteOf peer d)).endBranch := by
  simp [exec, execMStart, hpeer, hdir]

/-- Where the peer address or the direction is unwritten, the arm ends after its read of `SR1`. -/
theorem execMStart_unwritten (h : s.ctx.peerAddress = none ∨ s.ctx.direction = none) :
    exec .mStart s = raiseFault .unwrittenRead (s.readScratch (.arm .mStart) .sr1) := by
  cases hpeer : s.ctx.peerAddress with
  | none => simp [exec, execMStart, hpeer]
  | some peer =>
    have hdir : s.ctx.direction = none := by simpa [hpeer] using h
    simp [exec, execMStart, hpeer, hdir]

end

/-- Settles O19: the read arms the `SB` latch, so the write of `DR` clears `SB` and sends the address byte. -/
theorem mStartResult : Obligations.MStartResult := by
  unfold Obligations.MStartResult
  intro s hsb
  refine ⟨fun peer d hpeer hdir => ?written, fun hnone hfault => ?unwritten⟩
  case written =>
    refine ⟨_, _, execMStart_written hpeer hdir, addrByteOf_eq peer d, ?regs, ?seq, ?env, ?ctx, ?events, ?frame⟩
    case regs => simp [hsb]
    case seq => simp [latchesAfterSr1]
    case env => simp [hsb]
    case ctx => simp
    case events => simp [Appends]
    case frame => simp [SameMemory.of_mem_eq, SameRest]
  case unwritten =>
    have hfaults := (execMStart_unwritten hnone).trans (raiseFault_none (by simpa using hfault))
    exact ⟨_, hfaults, rfl, by simp, by simp⟩

/-- Settles O20: the read of `SR1` arms the `ADDR` latch where `ADDR` is set, and the read of `SR3` completes the
clear; with the latch not armed then, `ADDR` was 0. -/
theorem mAddrResult : Obligations.MAddrResult := by
  unfold Obligations.MAddrResult
  intro s
  refine ⟨_, rfl, ?regs, ?seq, ?ctx, ?events, ?frame⟩
  case regs =>
    by_cases harmed : s.seq.addrArmed = true ∨ s.regs.addr = true
    · simp [harmed, Regs.setAddr]
    · have haddr : s.regs.sr1.getLsbD 1 = false := Bool.eq_false_iff.2 (not_or.1 harmed).2
      simp [harmed, putBit_self _ _ _ (by decide) haddr]
  case seq => simp [latchesAfterSr1]
  case ctx => simp
  case events => simp [Appends]
  case frame => simp [SameMemory.of_mem_eq, SameRest]

/-! ### `M_TX` -/

section
variable {s u : State} {base n : Nat}

theorem mTxCompletion_reached (hbuffer : u.ctx.masterBuffer = some base) (hn : u.ctx.cursor = n) :
    mTxCompletion n u = .next ((((u.requestStop (.arm .mTx)).emit (.arm .mTx)
      (.cbMasterWriteDone base n)).setRole .slave).endBranch) := by
  simp [mTxCompletion, hbuffer, hn]

theorem mTxCompletion_not_reached (hn : u.ctx.cursor ≠ n) : mTxCompletion n u = .next u.endBranch := if_neg hn

/-- Below the length the byte at the cursor goes out and the cursor grows, before the completion test. -/
theorem execMTx_sends (hbuffer : s.ctx.masterBuffer = some base) (hlength : s.ctx.masterLength = some n)
    (hlt : s.ctx.cursor < n) (haddr : s.hasAddr (base + s.ctx.cursor) = true) :
    exec .mTx s = mTxCompletion n (((s.emit (.arm .mTx) (.memRd (base + s.ctx.cursor)
      (s.byteAt (base + s.ctx.cursor)))).writeReg (.arm .mTx) .dr (s.byteAt (base + s.ctx.cursor))).incCursor) := by
  simp [exec, execMTx, hbuffer, hlength, hlt, memRead_ok _ haddr]

theorem execMTx_no_byte (hlength : s.ctx.masterLength = some n) (hle : n ≤ s.ctx.cursor) :
    exec .mTx s = mTxCompletion n s := by
  simp [exec, execMTx, hlength, Nat.not_lt.2 hle]

end

/-- Settles O21: the byte is sent and the completion test fails. -/
theorem mTxContinues : Obligations.MTxContinues := by
  unfold Obligations.MTxContinues
  intro s base n hbuffer hlength hlt haddr hne
  have hsends := execMTx_sends hbuffer hlength hlt haddr
  have hexec := hsends.trans (mTxCompletion_not_reached (by simpa [Config.lenSpan] using hne))
  refine ⟨_, _, hexec, rfl, ?regs, ?ctx, ?events, ?seq, ?env, ?frame⟩
  case regs => cases hsb : s.seq.sbArmed <;> simp [sr1AfterDr, hsb]
  case ctx => simp [Config.lenSpan]
  case events => simp [Appends]
  case seq => simp
  case env => cases hsb : s.seq.sbArmed <;> simp [envAfterDr, hsb]
  case frame => simp [SameMemory.of_mem_eq, SameRest]

/-- Settles O22: the byte is sent and the completion test finds the cursor at the length. -/
theorem mTxCompletes : Obligations.MTxCompletes := by
  unfold Obligations.MTxCompletes
  intro s base n hbuffer hlength hlast hfits haddr
  have hcursor : (s.ctx.cursor + 1) % 2 ^ s.cfg.lenBits = n := by rw [hlast, Nat.mod_eq_of_lt hfits]
  have hsends := execMTx_sends hbuffer hlength (by omega) haddr
  have hexec := hsends.trans (mTxCompletion_reached (by simpa using hbuffer) (by simpa [Config.lenSpan]))
  refine ⟨_, _, _, hexec, rfl, rfl, ?regs, ?ctx, ?events, ?seq, ?env, ?frame⟩
  case regs => cases hsb : s.seq.sbArmed <;> cases hstop : s.seq.stopArmed <;> simp [sr1AfterDr, hsb, hstop]
  case ctx => simp [Config.lenSpan, hcursor]
  case events => simp [Appends]
  case seq => simp
  case env => cases hsb : s.seq.sbArmed <;> simp [envAfterDr, hsb]
  case frame => simp [SameMemory.of_mem_eq, SameRest]

/-- Settles O23: no byte is sent, and the completion test tells the length from what is beyond it. -/
theorem mTxNoByte : Obligations.MTxNoByte := by
  unfold Obligations.MTxNoByte
  intro s base n hbuffer hlength
  refine ⟨fun hn => ?reached, fun hlt => ?beyond⟩
  case reached =>
    have hnone := execMTx_no_byte hlength hn.ge
    refine ⟨_, _, hnone.trans (mTxCompletion_reached hbuffer hn), rfl, ?regs, ?ctx, ?events, ?frame⟩
    case regs => simp [sr1AfterCr2]
    case ctx => simp
    case events => simp [Appends]
    case frame => simp [SameMemory.of_mem_eq, SameRest]
  case beyond => exact (execMTx_no_byte hlength hlt.le).trans (mTxCompletion_not_reached hlt.ne')

/-! ### `M_RX` -/

/-- The byte stored stands at its address. -/
theorem byteAt_of_mem_write {s t : State} {a : Nat} {v : Byte} (h : t.mem = s.mem.write a v) : t.byteAt a = v :=
  (State.byteAt_congr (s := s.storeByte a v) h a).trans (s.byteAt_storeByte_same a v)

theorem SameMemoryBut.of_mem_write {s t : State} {a : Nat} {v : Byte} (h : t.mem = s.mem.write a v) :
    SameMemoryBut a s t := fun _ hb => not_not.1 fun hne => hb (eq_of_byteAt_ne h hne)

section
variable {s u : State} {base n : Nat}

/-- At the last index, `ACK` off, Stop and the callback. -/
theorem mRxCompletion_last (hbuffer : u.ctx.masterBuffer = some base) (hlast : u.ctx.cursor = lastIndex u.cfg n) :
    mRxCompletion n u = .next ((((u.setAck (.arm .mRx) false).requestStop (.arm .mRx)).emit (.arm .mRx)
      (.cbMasterReadDone base n)).setRole .slave).incCursor.endBranch := by
  simp [mRxCompletion, mRxEnd, hbuffer, hlast]

/-- Beyond it, the defensive exit. -/
theorem mRxCompletion_beyond (hlast : u.ctx.cursor ≠ lastIndex u.cfg n) (hle : n ≤ u.ctx.cursor) :
    mRxCompletion n u = .next ((u.setRole .slave).setAck (.arm .mRx) true).incCursor.endBranch := by
  simp [mRxCompletion, mRxEnd, hlast, hle]

theorem mRxCompletion_short (hlast : u.ctx.cursor ≠ lastIndex u.cfg n) (hlt : u.ctx.cursor < n) :
    mRxCompletion n u = .next u.incCursor.endBranch := by
  simp [mRxCompletion, mRxEnd, hlast, Nat.not_le.2 hlt]

/-- Below the length the byte delivered is stored at the cursor, before the completion. -/
theorem execMRx_stores (hbuffer : s.ctx.masterBuffer = some base) (hlength : s.ctx.masterLength = some n)
    (hlt : s.ctx.cursor < n) (haddr : s.hasAddr (base + s.ctx.cursor) = true) :
    exec .mRx s = mRxCompletion n (((s.afterRead (.arm .mRx) .dr).storeByte (base + s.ctx.cursor) s.regs.delivered).emit
      (.arm .mRx) (.memWr (base + s.ctx.cursor) s.regs.delivered)) := by
  have hread : (s.afterRead (.arm .mRx) .dr).hasAddr (base + s.ctx.cursor) = true := haddr
  simp [exec, execMRx, hbuffer, hlength, hlt, memWrite_ok _ hread]

theorem execMRx_no_store (hlength : s.ctx.masterLength = some n) (hle : n ≤ s.ctx.cursor) :
    exec .mRx s = mRxCompletion n (s.afterRead (.arm .mRx) .dr) := by
  simp [exec, execMRx, hlength, Nat.not_lt.2 hle]

end

/-- Settles O25: the byte is stored and neither end of the transfer is taken. -/
theorem mRxContinues : Obligations.MRxContinues := by
  unfold Obligations.MRxContinues
  intro s base n hbuffer hlength hlt hlast haddr
  have hstores := execMRx_stores hbuffer hlength hlt haddr
  have hexec := hstores.trans
    (mRxCompletion_short (by simpa [lastIndex, Config.lenSpan] using hlast) (by simpa using hlt))
  refine ⟨_, hexec, ?byte, ?others, ?regs, ?ctx, ?events, ?frame⟩
  case byte => exact byteAt_of_mem_write (s := s) (by simp)
  case others => exact .of_mem_write (v := s.regs.delivered) (by simp)
  case regs => simp [Regs.setRxne]
  case ctx => simp [Config.lenSpan]
  case events => simp [Appends]
  case frame => simp [SameRest]

/-- What the write that clears `ACK` leaves in `CR2`, the next read of it returns whole. -/
theorem ackOff_and_mask (v : Byte) : putBit (v &&& 0x07#8) 2 false &&& 0x07#8 = putBit (v &&& 0x07#8) 2 false :=
  putBit_cr2_and_mask v 2 false (by decide) (by decide)

/-- Settles O26: the byte is stored at the last index, where the transfer ends; the first write of `CR2` completes a
`STOPF` clear, the second finds no latch armed. -/
theorem mRxCompletes : Obligations.MRxCompletes := by
  unfold Obligations.MRxCompletes
  intro s base n hbuffer hlength hn hfits haddr
  have hcursor : (s.ctx.cursor + 1) % 2 ^ s.cfg.lenBits = n := by rw [hn, Nat.mod_eq_of_lt hfits]
  have hlast : s.ctx.cursor = lastIndex s.cfg n := by rw [lastIndex_pos (by omega) hfits]; omega
  have hstores := execMRx_stores hbuffer hlength (by omega) haddr
  have hexec := hstores.trans (mRxCompletion_last (by simpa using hbuffer) (by simpa using hlast))
  refine ⟨_, _, _, hexec, rfl, rfl, ?byte, ?others, ?regs, ?ctx, ?events, ?frame⟩
  case byte => exact byteAt_of_mem_write (s := s) (by simp)
  case others => exact .of_mem_write (v := s.regs.delivered) (by simp)
  case regs => cases hstop : s.seq.stopArmed <;> simp [Regs.setRxne, ackOff_and_mask, hstop]
  case ctx => simp [Config.lenSpan, hcursor]
  case events => simp [Appends, Regs.setRxne, ackOff_and_mask]
  case frame => simp [SameRest]

/-- Settles O27: nothing is stored; the defensive exit or, at the last index of an empty buffer, the completion. -/
theorem mRxStoresNothing : Obligations.MRxStoresNothing := by
  unfold Obligations.MRxStoresNothing
  intro s n hlength hle
  have hnone := execMRx_no_store hlength hle
  refine ⟨fun hlast => ?beyond, fun base hbuffer hlast => ?last⟩
  case beyond =>
    have hexec := hnone.trans
      (mRxCompletion_beyond (by simpa [lastIndex, Config.lenSpan] using hlast) (by simpa using hle))
    refine ⟨_, _, hexec, rfl, ?regs, ?ctx, ?events, ?frame⟩
    case regs => cases hstop : s.seq.stopArmed <;> simp [Regs.setRxne, hstop]
    case ctx => simp [Config.lenSpan]
    case events => simp [Appends, Regs.setRxne]
    case frame => simp [SameMemory.of_mem_eq, SameRest]
  case last =>
    have hexec := hnone.trans
      (mRxCompletion_last (by simpa using hbuffer) (by simpa [lastIndex, Config.lenSpan] using hlast))
    refine ⟨_, _, _, hexec, rfl, rfl, ?regs, ?ctx, ?events, ?frame⟩
    case regs => cases hstop : s.seq.stopArmed <;> simp [Regs.setRxne, ackOff_and_mask, hstop]
    case ctx => simp [Config.lenSpan]
    case events => simp [Appends, Regs.setRxne, ackOff_and_mask]
    case frame => simp [SameMemory.of_mem_eq, SameRest]

end Sys2Proof.Machine
end

section
/-!
The arms of the slave branch as exact next states (42_slave_branch.md R161 to R166): an equation of the data arms for
each of their cases, over the model's own updates, and then the fields of the next state by the rules of those updates.
-/

namespace Sys2Proof.Machine

/-! ### `S_ADDR` -/

section
variable (s : State) (k : Tag)

/-- A read of `SR1` arms the latch of `ADDR` where the flag is set, so a read of `SR3` after it leaves `ADDR` at 0
(10_state.md R41). -/
theorem readSr1_readSr3_regs :
    ((s.readScratch k .sr1).readScratch k .sr3).regs = s.regs.setAddr false := by
  by_cases harmed : s.seq.addrArmed = true ∨ s.regs.addr = true
  · simp [harmed]
  · have haddr : s.regs.sr1.getLsbD 1 = false := Bool.eq_false_iff.2 (not_or.1 harmed).2
    simp [harmed, Regs.setAddr, putBit_self _ _ _ (by decide) haddr]

variable {s}

/-- Where the latch of `STOPF` is armed if the flag is set, setting `ACK` leaves `STOPF` at 0 (10_state.md R41). -/
theorem setAck_regs_of_armed (b : Bool) (harmed : s.regs.stopf = true → s.seq.stopArmed = true) :
    (s.setAck k b).regs =
      { s.regs with cr2 := putBit (s.regs.cr2 &&& 0x07#8) 2 b, sr1 := putBit s.regs.sr1 4 false } := by
  rw [State.setAck_regs]
  split
  · rfl
  case isFalse hclear =>
    have hstopf : s.regs.sr1.getLsbD 4 = false := Bool.eq_false_iff.2 (mt harmed hclear)
    rw [putBit_self _ _ _ (by decide) hstopf]

end

/-- Settles O28: the read of `SR1` arms the latches of `ADDR` and `STOPF`; the read of `SR3` completes the one clear,
the write of `CR2` that sets `ACK` the other. -/
theorem sAddrResult : Obligations.SAddrResult := by
  unfold Obligations.SAddrResult
  intro s
  have hread := readSr1_readSr3_regs s (.arm .sAddr)
  refine ⟨_, _, rfl, rfl, ?regs, ?seq, ?ctx, ?events, ?frame⟩
  case regs =>
    refine (setAck_regs_of_armed (.arm .sAddr) true ?_).trans ?_
    · rw [hread, Regs.setAddr_stopf]
      simp +contextual
    · rw [hread]
      rfl
  case seq => simp [latchesAfterSr1]
  case ctx => simp
  case events => simp [Appends, Regs.setAddr, apply_ite Regs.cr2]
  case frame => simp [SameMemory.of_mem_eq, SameRest]

/-! ### `S_RX` and `S_TX` -/

/-- The event is recorded where the condition holds: a callback that comes only with the last byte (42_slave_branch.md
R162, R165). -/
def State.emitIf (s : State) (c : Prop) [Decidable c] (k : Tag) (e : Event) : State := if c then s.emit k e else s

/-- Such an event is a part of the trace that may be empty. -/
theorem State.emitIf_eq (s : State) (c : Prop) [Decidable c] (k : Tag) (e : Event) :
    s.emitIf c k e = { s with trace := s.trace ++ (if c then [e] else []).map (Entry.mk k) } := by
  unfold State.emitIf
  split <;> simp [State.emit]

section
variable {s : State} {base : Nat}

/-- Below a capacity that fits its field the cursor does not wrap (10_state.md R27). -/
theorem cursor_succ_mod {n : Nat} (hlt : s.ctx.cursor < n) (hfits : n < 2 ^ s.cfg.lenBits) :
    (s.ctx.cursor + 1) % s.cfg.lenSpan = s.ctx.cursor + 1 :=
  Nat.mod_eq_of_lt (Nat.lt_of_le_of_lt hlt hfits)

/-- Below the capacity the byte delivered is stored at the cursor. -/
theorem execSRx_stores (hbuffer : s.ctx.slaveBuffer = some base) (hlt : s.ctx.cursor < s.ctx.slaveLength)
    (hfits : s.ctx.slaveLength < 2 ^ s.cfg.lenBits) (haddr : s.hasAddr (base + s.ctx.cursor) = true) :
    exec .sRx s = .next (((((s.afterRead (.arm .sRx) .dr).storeByte (base + s.ctx.cursor) s.regs.delivered).emit
      (.arm .sRx) (.memWr (base + s.ctx.cursor) s.regs.delivered)).setCursor (s.ctx.cursor + 1)).emitIf
      (s.ctx.cursor + 1 = s.ctx.slaveLength) (.arm .sRx) (.cbSlaveReceiveDone base s.ctx.slaveLength)).endBranch := by
  have hread : (s.afterRead (.arm .sRx) .dr).hasAddr (base + s.ctx.cursor) = true := haddr
  simp [exec, execSRx, hbuffer, hlt, memWrite_ok _ hread, State.incCursor, cursor_succ_mod hlt hfits, State.emitIf]

theorem execSRx_no_store (hle : s.ctx.slaveLength ≤ s.ctx.cursor) :
    exec .sRx s = .next (s.afterRead (.arm .sRx) .dr).endBranch := by
  simp [exec, execSRx, Nat.not_lt.2 hle]

/-- Below the capacity the byte at the cursor goes out. -/
theorem execSTx_sends (hbuffer : s.ctx.slaveBuffer = some base) (hlt : s.ctx.cursor < s.ctx.slaveLength)
    (hfits : s.ctx.slaveLength < 2 ^ s.cfg.lenBits) (haddr : s.hasAddr (base + s.ctx.cursor) = true) :
    exec .sTx s = .next ((((s.emit (.arm .sTx) (.memRd (base + s.ctx.cursor) (s.byteAt (base + s.ctx.cursor)))).sendByte
      (.arm .sTx) (s.byteAt (base + s.ctx.cursor))).setCursor (s.ctx.cursor + 1)).emitIf
      (s.ctx.cursor + 1 = s.ctx.slaveLength) (.arm .sTx) (.cbSlaveTransmitDone base s.ctx.slaveLength)).endBranch := by
  simp [exec, execSTx, hbuffer, hlt, memRead_ok _ haddr, State.incCursor, cursor_succ_mod hlt hfits, State.emitIf]

theorem execSTx_no_byte (hle : s.ctx.slaveLength ≤ s.ctx.cursor) :
    exec .sTx s = .next (s.sendByte (.arm .sTx) 0x00#8).endBranch := by
  simp [exec, execSTx, Nat.not_lt.2 hle]

end

/-- Settles O29: the byte is stored at the cursor, and the one condition on it decides the callback. -/
theorem sRxStores : Obligations.SRxStores := by
  unfold Obligations.SRxStores
  intro s base hbuffer hlt hfits haddr
  have hexec := execSRx_stores hbuffer hlt hfits haddr
  rw [State.emitIf_eq] at hexec
  refine ⟨_, hexec, ?byte, ?others, ?regs, ?ctx, ?events, ?frame⟩
  case byte => exact byteAt_of_mem_write (s := s) (by simp)
  case others => exact .of_mem_write (v := s.regs.delivered) (by simp)
  case regs => simp [Regs.setRxne]
  case ctx => simp
  case events => simp [Appends]
  case frame => simp [SameRest]

/-- Settles O30: the arm is its read of `DR`. -/
theorem sRxDiscards : Obligations.SRxDiscards := by
  unfold Obligations.SRxDiscards
  intro s hle
  refine ⟨_, execSRx_no_store hle, ?regs, ?ctx, ?events, ?frame⟩
  case regs => simp [Regs.setRxne]
  case ctx => simp
  case events => simp [Appends]
  case frame => simp [SameMemory.of_mem_eq, SameRest]

/-- Settles O31: the byte is sent by a write that touches neither `SB` nor its latch, and the condition on the cursor
decides the callback. -/
theorem sTxSends : Obligations.STxSends := by
  unfold Obligations.STxSends
  intro s base hbuffer hlt hfits haddr
  have hexec := execSTx_sends hbuffer hlt hfits haddr
  rw [State.emitIf_eq] at hexec
  refine ⟨_, _, hexec, rfl, ?regs, ?ctx, ?events, ?frame⟩
  case regs => simp
  case ctx => simp
  case events => simp [Appends]
  case frame => exact ⟨rfl, rfl, rfl, rfl, .of_mem_eq rfl, rfl, rfl, rfl, rfl⟩

/-- Settles O32: the arm is one such write, of the filler. -/
theorem sTxFills : Obligations.STxFills := by
  unfold Obligations.STxFills
  intro s hle
  refine ⟨_, execSTx_no_byte hle, ?regs, ?ctx, ?events, ?frame⟩
  case regs => simp
  case ctx => simp
  case events => simp [Appends]
  case frame => exact ⟨rfl, rfl, rfl, rfl, .of_mem_eq rfl, rfl, rfl, rfl, rfl⟩

end Sys2Proof.Machine
end

section
/-!
`SB` in Slave role (42_slave_branch.md R168, 70_reset_and_hazards.md R255): which operations a turn taken in Slave role
can select, that none of these clears `SB` or disables its interrupt, and which of them leave the role.
-/

namespace Sys2Proof.Machine

/-! ### What a turn selects in Slave role -/

/-- In Slave role a dispatch word has the bit `r` clear (30_encoding.md R85); and inside a service step the caller
waits, so no command is issued and none goes on (60_exceptions.md R220). -/
def Fetched.SelectsInSlave (s : State) : Fetched → Prop
  | .quiet _ => True
  | .code c _ => (∀ w, c = .dispatch w → w.getLsbD 6 = false) ∧ (s.eng ≠ .idle → ∀ w, c ≠ .cmd w)
  | .resume _ _ => s.eng = .idle

section
variable {s : State} (hrole : s.ctx.role = .slave)
include hrole

theorem fetchBranch_selectsInSlave (ts : List Turn) : (fetchBranch { s with turns := ts }).SelectsInSlave s := by
  unfold fetchBranch
  dsimp only
  split
  case h_1 =>
    refine ⟨fun w hw => ?_, fun _ => nofun⟩
    cases hw
    exact (dispatchWord_bits .slave .write { s.regs with sr1 := s.regVal .sr1 }).1
  case h_2 hmaster => cases hrole.symm.trans hmaster

theorem engineTurn_selectsInSlave (ts : List Turn) : (engineTurn { s with turns := ts }).SelectsInSlave s := by
  unfold engineTurn
  split
  case h_1 => trivial
  case h_2 => exact fetchBranch_selectsInSlave hrole ts
  case h_3 | h_4 => exact ⟨nofun, fun _ => nofun⟩

theorem background_selectsInSlave : (background s).SelectsInSlave s := by
  unfold background
  split
  case isTrue => exact engineTurn_selectsInSlave hrole s.turns
  case isFalse hquiet =>
    split
    · exact not_not.1 (not_or.1 hquiet).1
    · trivial

theorem fetch_selectsInSlave : (fetch s).SelectsInSlave s := by
  unfold fetch
  split
  case h_1 => exact background_selectsInSlave hrole
  case h_2 => exact ⟨nofun, fun _ => nofun⟩
  case h_3 ts _ => exact engineTurn_selectsInSlave hrole ts
  case h_4 | h_5 => trivial
  case h_6 =>
    split
    case isTrue hfree =>
      have hidle : s.eng = .idle := beq_iff_eq.1 (Bool.and_eq_true_iff.1 hfree).1
      exact ⟨nofun, absurd hidle⟩
    case isFalse => exact background_selectsInSlave hrole
  case h_7 =>
    split
    · trivial
    · exact background_selectsInSlave hrole
  case h_8 =>
    split
    case isTrue => exact engineTurn_selectsInSlave hrole s.turns
    case isFalse hidle =>
      split
      · exact not_not.1 hidle
      · trivial

end

/-- Only a command word decodes to an arming command. -/
theorem decode_arming_command {c : Config} {code : Code} {d : Direction} {p : Addr7} {b n : Nat}
    (h : decode c code = .ok (.arming d p b n)) : ∃ w, code = .cmd w := by
  cases code with
  | cmd w => exact ⟨w, rfl⟩
  | dispatch w =>
    simp only [decode] at h
    generalize dispatchArm w = a at h
    cases a <;> cases d <;> cases h
  | epiErr e =>
    simp only [decode, decodeEpiErr] at h
    split_ifs at h
    cases d <;> cases h
  | epiStop v =>
    simp only [decode, decodeEpiStop] at h
    split_ifs at h
    cases d <;> cases h
  | env m => cases m <;> cases d <;> cases h

/-- A step in Slave role takes a turn and runs at most one operation, none that reads the master transfer, and inside a
service step no arming command. -/
theorem step_cases_slave {s t : State} (h : step s = .next t) (hrole : s.ctx.role = .slave) :
    TurnFrame s t ∨ ∃ u i, TurnFrame s u ∧ exec i u = .next t ∧ readsTransfer i = false ∧
      (s.eng ≠ .idle → ∀ d p b n, i ≠ .arming d p b n) := by
  rw [step_run (fault_none_of_step h)] at h
  have hframe := fetch_takesTurn s
  have hsel := fetch_selectsInSlave hrole
  generalize fetch s = f at h hframe hsel
  obtain ⟨o, rfl, ho⟩ | ⟨i, u, rfl, hexec⟩ | ⟨c, u, i, rfl, hdec, hexec⟩ | ⟨c, u, e, rfl, -, hnone⟩ := run_next h
  · exact .inl (hframe t ho)
  · obtain ⟨hturn, rfl⟩ := hframe
    exact .inr ⟨u, _, hturn, hexec, arming_readsTransfer _ _ _ _, absurd hsel⟩
  · obtain ⟨hturn, -⟩ := hframe
    obtain ⟨hword, hcaller⟩ := hsel
    refine .inr ⟨u, i, hturn, hexec, Bool.eq_false_iff.2 fun hreads => ?_, fun hservice d p b n hi => ?_⟩
    · obtain ⟨w, rfl, hbit⟩ := decode_readsTransfer hdec hreads
      rw [hword w rfl] at hbit
      cases hbit
    · obtain ⟨w, rfl⟩ := decode_arming_command (hi ▸ hdec)
      exact hcaller hservice w rfl
  · exact .inl (notDecoded_turnFrame e hframe.1 t hnone)

/-! ### `SB` -/

/-- `SB` is set (10_state.md R37). -/
def SbSet (s : State) : Prop := s.regs.sb = true

section
variable {s : State} (h : SbSet s)
include h

theorem SbSet.context (x : Context) : SbSet { s with ctx := x } := h

theorem SbSet.afterRead (k : Tag) (r : RegName) : SbSet (s.afterRead k r) := (s.afterRead_sb k r).trans h

theorem SbSet.readScratch (k : Tag) (r : RegName) : SbSet (s.readScratch k r) := h.afterRead k r

theorem SbSet.writeReg (k : Tag) (v : Byte) {r : RegName} (hr : r ≠ .dr) : SbSet (s.writeReg k r v) :=
  (s.writeReg_sb k r v).2 ⟨h, fun hdr => hr hdr.1⟩

theorem SbSet.setAck (k : Tag) (b : Bool) : SbSet (s.setAck k b) := h.writeReg k _ nofun

theorem SbSet.requestStart (k : Tag) : SbSet (s.requestStart k) := h.writeReg k _ nofun

theorem SbSet.requestStop (k : Tag) : SbSet (s.requestStop k) := h.writeReg k _ nofun

/-- The slave branch's write of `DR` is no address write (92_eei_decisions.md D11). -/
theorem SbSet.sendByte (k : Tag) (v : Byte) : SbSet (s.sendByte k v) := (s.regs.setTxe_sb false).trans h

theorem SbSet.clearErr (e : Nibble) (k : ErrFlag) : SbSet (s.clearErr e k) := by
  unfold State.clearErr
  split
  · exact h.writeReg _ _ nofun
  · exact h

theorem SbSet.stopOnError : SbSet s.stopOnError := by
  unfold State.stopOnError
  split
  · exact h.requestStop _
  · exact h

theorem armStep_keeps_sb (d : Direction) (p : Addr7) (b n : Nat) : SbSet (armStep d p b n s) := by
  unfold armStep
  split
  · exact h
  · exact h.readScratch (armTag d) .sr3
  · exact (h.setAck (armTag d) true).requestStart (armTag d)

theorem execSRx_keeps_sb : EveryNext SbSet (execSRx s) := by
  have hread := h.afterRead (.arm .sRx) .dr
  unfold execSRx
  dsimp only
  split
  · refine everyNext_needField (fun _ => hread) fun base _ => ?_
    refine everyNext_memWrite (fun _ => hread) fun _ => everyNext_next.2 ?_
    split <;> exact hread
  · exact everyNext_next.2 hread

theorem execSTx_keeps_sb : EveryNext SbSet (execSTx s) := by
  unfold execSTx
  dsimp only
  split
  · refine everyNext_needField (fun _ => h) fun base _ => ?_
    refine everyNext_memRead (fun _ => h) fun _ => everyNext_next.2 ?_
    split <;> exact h.sendByte (.arm .sTx) _
  · exact everyNext_next.2 (h.sendByte (.arm .sTx) 0x00#8)

end

section
variable (g : Regs) (b : Bool) (k : ErrFlag)

@[simp] theorem Regs.setMsl_sb : (g.setMsl b).sb = g.sb := rfl
@[simp] theorem Regs.setBusy_sb : (g.setBusy b).sb = g.sb := rfl
@[simp] theorem Regs.setTra_sb : (g.setTra b).sb = g.sb := rfl
@[simp] theorem Regs.raiseErr_sb : (g.raiseErr k).sb = g.sb := rfl
@[simp] theorem Regs.clearStart_sb : g.clearStart.sb = g.sb := rfl
@[simp] theorem Regs.clearStop_sb : g.clearStop.sb = g.sb := rfl
@[simp] theorem Regs.deliver_sb (v : Byte) : ({ g with dr := v, delivered := v } : Regs).sb = g.sb := rfl

end

/-- No operation clears `SB` but those that read the master transfer (42_slave_branch.md R168). -/
theorem exec_keeps_sb (i : Instr) {s : State} (h : SbSet s) (hi : readsTransfer i = false) :
    EveryNext SbSet (exec i s) := by
  have hsb : s.regs.sb = true := h
  cases i with
  | mStart | mTx | mRx => cases hi
  | init =>
    intro t ht
    obtain ⟨t', ht', hregs, -⟩ := initResult s
    cases ht'.symm.trans ht
    exact (congrArg Regs.sb hregs).trans h
  | cfgSlave a b n =>
    have hoar := h.writeReg (.command .cfgSlave) (ownAddrByte a) (r := .oar) nofun
    exact everyNext_next.2 ((hoar.context _).setAck (.command .cfgSlave) true)
  | armWrite p b n => exact everyNext_next.2 (armStep_keeps_sb h .write p b n)
  | armRead p b n => exact everyNext_next.2 (armStep_keeps_sb h .read p b n)
  | mAddr => exact everyNext_next.2 ((h.readScratch (.arm .mAddr) .sr1).readScratch (.arm .mAddr) .sr3)
  | sAddr =>
    have hread := (h.readScratch (.arm .sAddr) .sr1).readScratch (.arm .sAddr) .sr3
    exact everyNext_next.2 (hread.setAck (.arm .sAddr) true)
  | sRx => exact execSRx_keeps_sb h
  | sTx => exact execSTx_keeps_sb h
  | mTxUnexpected | mTxIdle | mRxIdle | sIdle => exact everyNext_next.2 h
  | epiErr e =>
    exact everyNext_next.2 ((((h.clearErr e .berr).clearErr e .arlo).clearErr e .af).clearErr e .ovr).stopOnError
  | epiStop => exact everyNext_next.2 ((h.afterRead .epiStop .cr2).writeReg .epiStop (s.regVal .cr2) nofun)
  | envStartdone | envAddrnack | envTxack | envTxnack | envBusstart | envPeerstop =>
    exact everyNext_next.2 (by simp [SbSet, hsb])
  | envAddrack | envRxbyte | envStopdone | envMatch | envErr =>
    refine everyNext_next.2 ?_
    simp only [SbSet, State.onWire_regs, Regs.deliver_sb]
    split <;> simp [hsb]

/-! ### The interrupt of `SB` -/

/-- The block is enabled, and its event interrupts (10_state.md R32, R40). -/
def EventsEnabled (g : Regs) : Prop := g.pe = true ∧ g.itevten = true

/-- A set `SB` is an event, so it is pending wherever events are enabled (10_state.md R46). -/
theorem EventsEnabled.pending {g : Regs} (h : EventsEnabled g) (hsb : g.sb = true) : g.pending = true := by
  obtain ⟨hpe, hitevten⟩ := h
  simp [Regs.pending, Regs.evt, hpe, hitevten, hsb]

/-- `INIT` enables events, and no other operation writes the two registers (10_state.md R32, R40). -/
theorem exec_keeps_eventsEnabled {i : Instr} {s t : State} (h : exec i s = .next t) (hs : EventsEnabled s.regs) :
    EventsEnabled t.regs := by
  by_cases hi : i = .init
  · obtain ⟨t', ht', hregs, -⟩ := initResult s
    subst hi
    cases ht'.symm.trans h
    simp [EventsEnabled, Regs.pe, Regs.itevten, hregs]
  · obtain ⟨hcr1, hitr, -⟩ := (configurationWriters.1 i s t h).1 hi
    simpa [EventsEnabled, Regs.pe, Regs.itevten, hcr1, hitr] using hs

/-! ### The role -/

/-- Only an arming command leaves Slave role (10_state.md R21). -/
theorem ContextEffect.keeps_slaveRole {i : Instr} {s t : State} (h : ContextEffect s t i) (hs : s.ctx.role = .slave)
    (hi : ∀ d p b n, i ≠ .arming d p b n) : t.ctx.role = .slave := by
  cases h with
  | scratch _ hctx | restarted _ _ hctx | masterAdvanced _ _ _ _ _ _ hctx | slaveAdvanced _ _ hctx =>
    rw [hctx]
    exact hs
  | configured _ _ _ hctx | masterDone _ _ _ _ hctx => rw [hctx]
  | armed d p b n _ _ => exact absurd rfl (hi d p b n)

theorem TurnFrame.role_eq {s t : State} (h : TurnFrame s t) : t.ctx.role = s.ctx.role := by rw [h.ctx]

/-- Settles O51: taking a turn leaves the registers and the role; the operation it selects in Slave role is none of
those that clear `SB`, and inside a service step it is no arming command. -/
theorem slaveRoleKeepsSb : Obligations.SlaveRoleKeepsSb := by
  unfold Obligations.SlaveRoleKeepsSb
  intro s t h hrole hsb
  obtain hframe | ⟨u, i, hframe, hexec, hreads, harming⟩ := step_cases_slave h hrole
  · refine ⟨?_, fun hpe hitevten => ?_, fun _ => hframe.role_eq.trans hrole⟩ <;> rw [hframe.regs]
    · exact hsb
    · exact EventsEnabled.pending ⟨hpe, hitevten⟩ hsb
  · have htsb : t.regs.sb = true := exec_keeps_sb i (s := u) (by rwa [SbSet, hframe.regs]) hreads t hexec
    refine ⟨htsb, fun hpe hitevten => ?_, fun hservice => ?_⟩
    · have hu : EventsEnabled u.regs := by rw [hframe.regs]; exact ⟨hpe, hitevten⟩
      exact (exec_keeps_eventsEnabled hexec hu).pending htsb
    · exact (exec_context i u t hexec).keeps_slaveRole (hframe.role_eq.trans hrole) (harming hservice)

end Sys2Proof.Machine
end

section
/-!
The shared epilogue (43_epilogue.md R180 to R186): what its clears and its Stop request do to the trace and the
registers, the two arms as exact next states, and the two phases as steps, with their arm selected and without.
-/

namespace Sys2Proof.Machine

/-! ### Events appended -/

section
variable {k : Tag} {es : List Event} {e : Event} {s t : State}

theorem Appends.trace_prefix (h : Appends k es s t) : s.trace <+: t.trace := ⟨_, h.symm⟩

theorem Appends.getLast?_trace (h : Appends k (es ++ [e]) s t) : t.trace.getLast? = some ⟨k, e⟩ := by
  rw [h]
  simp

end

/-! ### The clears and the Stop request of `EPI_ERR` -/

section
variable (s : State) (e : Nibble)

theorem State.clearErr_trace (k : ErrFlag) :
    (s.clearErr e k).trace =
      s.trace ++ if e.getLsbD k.index then [⟨.epiErr, .regWr .sr2 (clearMask k)⟩] else [] := by
  unfold State.clearErr
  split
  · rfl
  · exact (List.append_nil _).symm

/-- Clears one after another append one write for each flag in the mask, in their order. -/
theorem foldl_clearErr_appends (ks : List ErrFlag) :
    Appends .epiErr ((ks.filter fun k => e.getLsbD k.index).map fun k => .regWr .sr2 (clearMask k)) s
      (ks.foldl (fun u k => u.clearErr e k) s) := by
  unfold Appends
  induction ks generalizing s with
  | nil => simp
  | cons k ks ih =>
    rw [List.foldl_cons, ih, State.clearErr_trace]
    cases hk : e.getLsbD k.index <;> simp [hk]

/-- The four clears append their writes in ascending bit order (43_epilogue.md R182). -/
theorem State.clearErrs_trace :
    (s.clearErrs e).trace =
      s.trace ++ (([ErrFlag.berr, .arlo, .af, .ovr].filter fun k => e.getLsbD k.index).map
        fun k => Event.regWr .sr2 (clearMask k)).map (Entry.mk .epiErr) :=
  foldl_clearErr_appends s e [.berr, .arlo, .af, .ovr]

theorem State.clearErrs_cr2 : (s.clearErrs e).regs.cr2 = s.regs.cr2 := by rw [State.clearErrs_regs]

theorem State.clearErrs_sr1AfterCr2 : sr1AfterCr2 (s.clearErrs e) = sr1AfterCr2 s := by
  simp only [sr1AfterCr2, State.clearErrs_seq]
  rw [State.clearErrs_regs]

theorem State.stopOnError_master (h : s.ctx.role = .master) : s.stopOnError = s.requestStop .epiErr := by
  simp [State.stopOnError, h]

theorem State.stopOnError_slave (h : s.ctx.role = .slave) : s.stopOnError = s := by
  simp [State.stopOnError, h]

@[simp] theorem State.stopOnError_env : s.stopOnError.env = s.env := by
  cases hrole : s.ctx.role with
  | master => simp [s.stopOnError_master hrole]
  | slave => rw [s.stopOnError_slave hrole]

/-- In Master role the write of `CR2` sets `STOP` and completes an armed `STOPF` clear (10_state.md R41, log 20). -/
theorem State.stopOnError_regs :
    s.stopOnError.regs =
      { s.regs with
        cr2 := if s.ctx.role = .master then putBit (s.regs.cr2 &&& 0x07#8) 1 true else s.regs.cr2
        sr1 := if s.ctx.role = .master then sr1AfterCr2 s else s.regs.sr1 } := by
  cases hrole : s.ctx.role with
  | master => simp [s.stopOnError_master hrole, sr1AfterCr2]
  | slave => simp [s.stopOnError_slave hrole]

theorem State.stopOnError_seq :
    s.stopOnError.seq = if s.ctx.role = .master then { s.seq with stopArmed := false } else s.seq := by
  cases hrole : s.ctx.role with
  | master => simp [s.stopOnError_master hrole]
  | slave => simp [s.stopOnError_slave hrole]

theorem State.stopOnError_trace :
    s.stopOnError.trace = s.trace ++
      (if s.ctx.role = .master then [.regWr .cr2 (putBit (s.regs.cr2 &&& 0x07#8) 1 true), .stopReq] else []).map
        (Entry.mk .epiErr) := by
  cases hrole : s.ctx.role with
  | master => simp [s.stopOnError_master hrole]
  | slave => simp [s.stopOnError_slave hrole]

end

/-- Settles O35: the clears act on `SR2` alone, and of what follows only the Stop request of Master role touches the
registers, by a write of `CR2`. -/
theorem epiErrResult : Obligations.EpiErrResult := by
  unfold Obligations.EpiErrResult
  intro s e
  have hcr2 := s.clearErrs_cr2 e
  refine ⟨_, _, rfl, rfl, fun k => ?err, ?regs, ?events, ?seq, ?frame⟩
  case err => simpa [State.stopOnError_regs, Regs.err] using s.clearErrs_err e k
  case regs =>
    simp only [State.endEpiErr_regs, State.emit_regs, State.stopOnError_regs, State.clearErrs_ctx, hcr2,
      State.clearErrs_sr1AfterCr2]
    rw [State.clearErrs_regs]
  case events => simp [Appends, State.stopOnError_trace, State.clearErrs_trace, hcr2, clearMask]
  case seq => simp [State.stopOnError_seq]
  case frame => simp [SameMemory.of_mem_eq, SameRest]

/-! ### `EPI_STOP` -/

/-- Settles O37, by the rules of a read and a write of `CR2`. -/
theorem epiStopResult : Obligations.EpiStopResult := by
  unfold Obligations.EpiStopResult
  intro s
  refine ⟨_, rfl, ?regs, ?events, ?frame⟩
  case regs =>
    rw [State.leaveService_regs, State.writeReg_cr2_regs, State.regVal_cr2, and_mask_mask]
    rfl
  case events => simp [Appends]
  case frame => simp [SameMemory.of_mem_eq, SameRest]

/-! ### The phases as steps -/

/-- The mask `EPI_ERR` is selected by holds the error flags, each at its place (30_encoding.md R83). -/
theorem Regs.errMask_getLsbD (g : Regs) (k : ErrFlag) : g.errMask.getLsbD k.index = g.err k := by
  simp [Regs.errMask, Regs.err, ErrFlag.index_lt]

/-- The error flags are implemented, so a read of `SR2` returns them (10_state.md R38). -/
theorem State.regVal_sr2_errMask (s : State) : (s.regVal .sr2).extractLsb' 0 4 = s.regs.errMask := by
  apply BitVec.eq_of_getLsbD_eq
  intro j hj
  have hmask : (0x0F#8).getLsbD j = true := by interval_cases j <;> rfl
  simp [Regs.errMask, hmask]

/-- `STOPF` is implemented, so a read of `SR1` returns it (10_state.md R37). -/
theorem State.regVal_sr1_stopf (s : State) : (s.regVal .sr1).getLsbD 4 = s.regs.stopf := by
  simp [Regs.stopf]

section
variable {s : State} {ts : List Turn} (hfault : s.fault = none) (hturns : s.turns = .engine :: ts)
include hfault hturns

theorem step_engine : step s = run (engineTurn { s with turns := ts }) := by
  rw [step_run hfault]
  simp [fetch, hturns]

/-- Phase `EpiErr`: the arm runs with the mask read, and a mask of 0 selects nothing (43_epilogue.md R181, R186). -/
theorem step_epiErr (heng : s.eng = .epiErr) :
    step s =
      if s.regs.errMask = 0#4 then .next (State.afterRead { s with turns := ts } .epiErr .sr2).endEpiErr
      else exec (.epiErr s.regs.errMask) (State.afterRead { s with turns := ts } .epiErr .sr2) := by
  rw [step_engine hfault hturns]
  simp only [engineTurn, heng, State.regVal_sr2_errMask, run, decode, decodeEpiErr]
  split_ifs <;> rfl

/-- Phase `EpiStop`: the arm runs where the read shows `STOPF`, else the service step returns (43_epilogue.md R185,
R186). -/
theorem step_epiStop (heng : s.eng = .epiStop) :
    step s =
      if s.regs.stopf then exec .epiStop (State.readScratch { s with turns := ts } .epiStop .sr1)
      else .next (State.readScratch { s with turns := ts } .epiStop .sr1).leaveService := by
  rw [step_engine hfault hturns]
  simp only [engineTurn, heng, run, decode, decodeEpiStop, State.regVal_sr1_stopf]
  split_ifs <;> rfl

end

/-- Settles O36: with no flag set the mask selects nothing; with some, `EPI_ERR` runs with the mask read, which holds
every flag that is set, and reports it last. -/
theorem epiErrPhase : Obligations.EpiErrPhase := by
  unfold Obligations.EpiErrPhase
  intro s ts hfault hturns heng
  rw [step_epiErr hfault hturns heng]
  split
  case isTrue hmask =>
    have hflag (k : ErrFlag) : s.regs.err k = false := by simp [← Regs.errMask_getLsbD, hmask]
    exact ⟨_, rfl, rfl, rfl, hflag, List.prefix_rfl, fun _ => rfl, absurd hmask⟩
  case isFalse hmask =>
    obtain ⟨t, _, hexec, -, hflags, -, hevents, -, hctx, -, hphase, -⟩ :=
      epiErrResult (State.afterRead { s with turns := ts } .epiErr .sr2) s.regs.errMask
    have hflag (k : ErrFlag) : t.regs.err k = false := by
      rw [hflags, Regs.errMask_getLsbD]
      exact Bool.and_not_self _
    exact ⟨t, hexec, hphase, hctx, hflag, hevents.trace_prefix, (absurd · hmask), fun _ => hevents.getLast?_trace⟩

/-- Settles O38: the read arms the latch of `STOPF` where the flag is set, and then `EPI_STOP` runs, whose write of
`CR2` completes the clear; else `STOPF` is 0 already. -/
theorem epiStopPhase : Obligations.EpiStopPhase := by
  unfold Obligations.EpiStopPhase
  intro s ts hfault hturns heng
  rw [step_epiStop hfault hturns heng]
  cases hstopf : s.regs.stopf with
  | false =>
    have hsr1 : putBit s.regs.sr1 4 false = s.regs.sr1 := putBit_self _ _ _ (by decide) hstopf
    exact ⟨_, rfl, rfl, hstopf, by rw [hsr1]; rfl, rfl, rfl, rfl⟩
  | true =>
    obtain ⟨t, hexec, hregs, hevents, -, hctx, -, hphase, -⟩ :=
      epiStopResult (State.readScratch { s with turns := ts } .epiStop .sr1)
    have hsr1 : sr1AfterCr2 (State.readScratch { s with turns := ts } .epiStop .sr1) = putBit s.regs.sr1 4 false := by
      simp [sr1AfterCr2, hstopf]
    rw [hsr1] at hregs
    refine ⟨t, hexec, hphase, ?stopf, ?regs, ?cr2, hctx, ?events⟩
    case stopf =>
      rw [hregs]
      exact Regs.setStopf_stopf s.regs false
    case regs =>
      rw [hregs]
      rfl
    case cr2 =>
      rw [hregs]
      exact and_mask_mask _ _
    case events =>
      rw [Appends, hevents]
      simp

end Sys2Proof.Machine
end

section
/-!
The moves of the bus environment (44_bus_environment.md R190 to R196, R199, R201): the form every move has and the
registers it leaves, the exact effects of those the environment makes on its own conditions, and the acknowledge of the
last byte received, which `ADDRACK` and `RXBYTE` alone record.
-/

namespace Sys2Proof.Machine

/-! ### The form of a move -/

/-- The registers differ in what the environment may change: the status registers, `DR` and what it delivers, and the
`START` and `STOP` bits of `CR2` (44_bus_environment.md R190). -/
structure BusChanged (g g' : Regs) : Prop where
  regs : g' = { g with
    sr1 := g'.sr1, sr2 := g'.sr2, sr3 := g'.sr3, cr2 := g'.cr2, dr := g'.dr, delivered := g'.delivered }
  cr2 : ∀ k, 2 ≤ k → g'.cr2.getLsbD k = g.cr2.getLsbD k

theorem Regs.clearStart_cr2_bit (g : Regs) {k : Nat} (hk : 2 ≤ k) :
    g.clearStart.cr2.getLsbD k = g.cr2.getLsbD k := by
  rw [Regs.clearStart, getLsbD_putBit _ _ _ _ (by decide), if_neg (by omega)]

theorem Regs.clearStop_cr2_bit (g : Regs) {k : Nat} (hk : 2 ≤ k) :
    g.clearStop.cr2.getLsbD k = g.cr2.getLsbD k := by
  rw [Regs.clearStop, getLsbD_putBit _ _ _ _ (by decide), if_neg (by omega)]

/-- A move changes the registers, the environment's own state and the trace, by one `Wire` event. -/
theorem exec_envMove (m : EnvWord) (s : State) :
    ∃ g e w, exec (decodeEnv m) s = .next ({ s with regs := g, env := e }.onWire w) ∧ BusChanged s.regs g := by
  cases m with
  | startdone => exact ⟨_, _, _, rfl, rfl, fun _ hk => s.regs.clearStart_cr2_bit hk⟩
  | stopdone f =>
    refine ⟨_, _, _, rfl, ?_⟩
    split <;> exact ⟨rfl, fun _ hk => s.regs.clearStop_cr2_bit hk⟩
  | addrnack | busstart | peerstop => exact ⟨_, _, _, rfl, rfl, fun _ _ => rfl⟩
  | txack | txnack => exact ⟨_, s.env, _, rfl, rfl, fun _ _ => rfl⟩
  | addrack | rxbyte b | matched d =>
    refine ⟨_, _, _, rfl, ?_⟩
    split <;> exact ⟨rfl, fun _ _ => rfl⟩
  | err k =>
    refine ⟨_, s.env, _, rfl, ?_⟩
    split <;> exact ⟨rfl, fun _ _ => rfl⟩

/-- No move looks at the context (44_bus_environment.md R201). -/
theorem exec_envMove_context {m : EnvWord} {s t : State} (h : exec (decodeEnv m) s = .next t) (x : Context) :
    exec (decodeEnv m) { s with ctx := x } = .next { t with ctx := x } := by
  cases m with
  | startdone | addrack | addrnack | txack | txnack | rxbyte | stopdone | busstart | matched | peerstop | err =>
    cases h
    rfl

/-- Settles O39: the form of a move and the registers it leaves, and that no move looks at the context. -/
theorem environmentFrame : Obligations.EnvironmentFrame := by
  unfold Obligations.EnvironmentFrame
  intro m s
  obtain ⟨g, e, w, hexec, hregs, hcr2⟩ := exec_envMove m s
  refine ⟨_, hexec, ⟨w, rfl⟩, hregs, hcr2, rfl, rfl, rfl, rfl, .of_mem_eq rfl, ?rest, exec_envMove_context hexec⟩
  case rest => exact ⟨rfl, rfl, rfl, rfl⟩

/-! ### Starts, Stops and acknowledges -/

/-- Settles O40, move by move: only `STOPDONE` draws whether a flag is set. -/
theorem busConditionMoves : Obligations.BusConditionMoves := by
  unfold Obligations.BusConditionMoves
  refine fun s => ⟨?startdone, fun f => ?stopdone, ?busstart, ?peerstop⟩
  case stopdone => exact ⟨_, rfl, by cases f <;> rfl, rfl⟩
  case startdone | busstart | peerstop => exact ⟨_, rfl, rfl, rfl⟩

/-- The acknowledge of an address byte: `ADDR` and the direction, and `TXE` where this device transmits. -/
theorem execEnvAddrack_regs (s : State) :
    ∃ t, exec .envAddrack s = .next t ∧
      t.regs = { s.regs with
        sr1 := if s.addrDir then putBit s.regs.sr1 1 true else putBit (putBit s.regs.sr1 1 true) 7 true
        sr3 := putBit s.regs.sr3 2 (!s.addrDir) } ∧
      Appends .env [.wire .addrAck] s t := by
  refine ⟨_, rfl, ?regs, rfl⟩
  case regs =>
    rw [State.onWire_regs]
    cases s.addrDir <;> rfl

/-- Settles O41, move by move: only `ADDRACK` looks at the direction. -/
theorem acknowledgeMoves : Obligations.AcknowledgeMoves := by
  unfold Obligations.AcknowledgeMoves
  refine fun s => ⟨execEnvAddrack_regs s, ?addrnack, ?txack, ?txnack⟩
  case addrnack | txack | txnack => exact ⟨_, rfl, rfl, rfl⟩

/-! ### The acknowledge of the last byte received -/

/-- The acknowledge recorded for the last byte received is `b` (44_bus_environment.md R195). -/
def HasRxAck (b : Bool) (s : State) : Prop := s.env.rxAck = b

@[simp] theorem hasRxAck_iff {b : Bool} {s : State} : HasRxAck b s ↔ s.env.rxAck = b := Iff.rfl

/-- A write of `DR` may record an address byte, but no acknowledge of a byte received. -/
theorem State.writeReg_dr_rxAck (s : State) (k : Tag) (v : Byte) :
    (s.writeReg k .dr v).env.rxAck = s.env.rxAck := by
  rw [State.writeReg_dr_env]
  split <;> rfl

@[simp] theorem armStep_env (d : Direction) (p : Addr7) (b n : Nat) (s : State) : (armStep d p b n s).env = s.env := by
  unfold armStep
  split
  · rfl
  · simp [armSpin]
  · simp [armIssue]

section
variable {b : Bool} {s u : State}

theorem execMStart_keeps_rxAck (h : s.env.rxAck = b) : EveryNext (HasRxAck b) (execMStart s) := by
  refine everyNext_needField (by simp [h]) fun p _ => ?_
  exact everyNext_needField (by simp [h]) fun d _ =>
    everyNext_next.2 ((State.writeReg_dr_rxAck _ (.arm .mStart) _).trans (by simp [h]))

theorem mTxCompletion_keeps_rxAck (n : Nat) (h : u.env.rxAck = b) : EveryNext (HasRxAck b) (mTxCompletion n u) := by
  unfold mTxCompletion
  split
  · exact everyNext_needField (by simp [h]) fun base _ => by simp [h]
  · simp [h]

theorem execMTx_keeps_rxAck (h : s.env.rxAck = b) : EveryNext (HasRxAck b) (execMTx s) := by
  refine everyNext_needField (by simp [h]) fun n _ => ?_
  split
  · refine everyNext_needField (by simp [h]) fun base _ => ?_
    exact everyNext_memRead (by simp [h]) fun _ =>
      mTxCompletion_keeps_rxAck n ((State.writeReg_dr_rxAck _ (.arm .mTx) _).trans h)
  · exact mTxCompletion_keeps_rxAck n h

theorem mRxCompletion_keeps_rxAck (n : Nat) (h : u.env.rxAck = b) : EveryNext (HasRxAck b) (mRxCompletion n u) := by
  unfold mRxCompletion
  split
  · exact everyNext_needField (by simp [h]) fun base _ => by simp [mRxEnd, h]
  · split <;> simp [mRxEnd, h]

theorem execMRx_keeps_rxAck (h : s.env.rxAck = b) : EveryNext (HasRxAck b) (execMRx s) := by
  refine everyNext_needField (by simp [h]) fun n _ => ?_
  split
  · refine everyNext_needField (by simp [h]) fun base _ => ?_
    exact everyNext_memWrite (by simp [h]) fun _ => mRxCompletion_keeps_rxAck n (by simp [h])
  · exact mRxCompletion_keeps_rxAck n (by simp [h])

theorem execSRx_keeps_rxAck (h : s.env.rxAck = b) : EveryNext (HasRxAck b) (execSRx s) := by
  unfold execSRx
  dsimp only
  split
  · refine everyNext_needField (by simp [h]) fun base _ => ?_
    refine everyNext_memWrite (by simp [h]) fun _ => everyNext_next.2 ?_
    split <;> simp [h]
  · simp [h]

theorem execSTx_keeps_rxAck (h : s.env.rxAck = b) : EveryNext (HasRxAck b) (execSTx s) := by
  unfold execSTx
  dsimp only
  split
  · refine everyNext_needField (by simp [h]) fun base _ => ?_
    refine everyNext_memRead (by simp [h]) fun _ => everyNext_next.2 ?_
    split <;> simp [h]
  · simp [h]

/-- No operation records an acknowledge of a byte received but `ADDRACK`, which starts afresh, and `RXBYTE`. -/
theorem exec_keeps_rxAck {i : Instr} (hack : i ≠ .envAddrack) (hbyte : ∀ c, i ≠ .envRxbyte c)
    (h : s.env.rxAck = b) : EveryNext (HasRxAck b) (exec i s) := by
  cases i with
  | envAddrack => exact absurd rfl hack
  | envRxbyte c => exact absurd rfl (hbyte c)
  | mStart => exact execMStart_keeps_rxAck h
  | mTx => exact execMTx_keeps_rxAck h
  | mRx => exact execMRx_keeps_rxAck h
  | sRx => exact execSRx_keeps_rxAck h
  | sTx => exact execSTx_keeps_rxAck h
  | armWrite p b n | armRead p b n => exact everyNext_next.2 (by simp [h])
  | init | cfgSlave | mAddr | sAddr | epiErr | epiStop => exact everyNext_next.2 (by simp [State.writeBit, h])
  | mTxUnexpected | mTxIdle | mRxIdle | sIdle => exact everyNext_next.2 h
  | envStartdone | envAddrnack | envTxack | envTxnack | envStopdone | envBusstart | envMatch | envPeerstop | envErr =>
    exact everyNext_next.2 h

end

/-! ### `RXBYTE` -/

/-- A byte not acknowledged is a master's last: the guard then needs a slave-receive match (44_bus_environment.md
R191, R195, log 6). -/
theorem envGuard_rxbyte_after_nack {s : State} (b : Byte) (hack : s.env.rxAck = false)
    (hmatch : s.env.slaveMatch ≠ some false) : envGuard (.rxbyte b) s = false := by
  simp [envGuard, State.masterReceiving, hack, hmatch]

/-- The registers after `RXBYTE`: the byte, and `RXNE` or, where that was set, an overrun (44_bus_environment.md
R204). -/
theorem execEnvRxbyte_regs (b : Byte) (s : State) :
    ∃ t, exec (.envRxbyte b) s = .next t ∧
      t.regs = { (if s.regs.rxne then s.regs.raiseErr .ovr else s.regs.setRxne true) with dr := b, delivered := b } ∧
      Appends .env [.wire (.byte b s.regs.ack)] s t ∧ t.env.rxAck = s.regs.ack :=
  ⟨_, rfl, rfl, rfl, rfl⟩

/-- Settles O42: the registers by whether the byte before was still unread, the guard after a Nack, and the two moves
that record an acknowledge. -/
theorem receiveMove : Obligations.ReceiveMove := by
  unfold Obligations.ReceiveMove
  intro s b
  obtain ⟨t, hexec, hregs, hevents, hack⟩ := execEnvRxbyte_regs b s
  refine ⟨t, hexec, by rw [hregs], by rw [State.regVal_dr, hregs], ?rxne, ?fresh, ?overrun, hevents, hack,
    envGuard_rxbyte_after_nack b, ?kept⟩
  case rxne =>
    rw [hregs]
    split
    case isTrue hrxne => exact hrxne
    case isFalse => exact s.regs.setRxne_rxne true
  case fresh =>
    intro hrxne
    rw [hregs, hrxne]
    rfl
  case overrun =>
    intro hrxne
    rw [hregs, hrxne]
    rfl
  case kept => exact fun i u hu hs haddrack hrxbyte => exec_keeps_rxAck haddrack hrxbyte hs u hu

end Sys2Proof.Machine
end

section
/-!
What each turn comes to, said once (60_exceptions.md R220, R223): the engine's turn, a move, the caller's turn where the
caller is free, or nothing; then the steps of single turns, and the marks of refusals (R218, R226).
-/

namespace Sys2Proof.Machine

/-! ### The turn taken -/

/-- What the fetch from `s` comes to; the caller's turns only outside a service step. -/
inductive FetchCase (s : State) : Fetched → Prop
  | engine (ts : List Turn) (hts : ts = s.turns ∨ s.turns = .engine :: ts) :
      FetchCase s (engineTurn { s with turns := ts })
  | env (m : EnvWord) (ts : List Turn) (hts : s.turns = .env m :: ts) :
      FetchCase s (.code (.env m) { s with turns := ts })
  | called (a : Option Addr7) (ts : List Turn) (hts : s.turns = .called a :: ts) :
      FetchCase s (.quiet (.next (State.sendAddress { s with turns := ts } a)))
  | callback (b : CallbackBody) (ts : List Turn) (hts : s.turns = .callback b :: ts) :
      FetchCase s (.quiet (.next (State.runBody { s with turns := ts } b)))
  | command (w : CmdWord) (ts : List Turn) (hidle : s.eng = .idle) :
      FetchCase s (.code (.cmd w) { s with turns := ts })
  | store (a : Nat) (v : Byte) (ts : List Turn) (hidle : s.eng = .idle) :
      FetchCase s (.quiet (callerStore a v { s with turns := ts }))
  | arming (ts : List Turn) (hidle : s.eng = .idle) :
      FetchCase s (.resume (armingUnderWay s) { s with turns := ts })
  | nothing (ts : List Turn) (hidle : s.eng = .idle) : FetchCase s (.quiet (.next { s with turns := ts }))

theorem State.callerFree_iff {s : State} : s.callerFree = true ↔ s.eng = .idle ∧ s.call = .ready := by
  simp [State.callerFree]

theorem background_fetchCase (s : State) : FetchCase s (background s) := by
  unfold background
  split
  case isTrue => exact .engine s.turns (.inl rfl)
  case isFalse hquiet =>
    have hidle : s.eng = .idle := not_not.1 (not_or.1 hquiet).1
    split
    · exact .arming s.turns hidle
    · exact .nothing s.turns hidle

theorem fetch_fetchCase (s : State) : FetchCase s (fetch s) := by
  unfold fetch
  split
  case h_1 => exact background_fetchCase s
  case h_2 m ts hts => exact .env m ts hts
  case h_3 ts hts => exact .engine ts (.inr hts)
  case h_4 a ts hts => exact .called a ts hts
  case h_5 b ts hts => exact .callback b ts hts
  case h_6 w ts _ =>
    split
    case isTrue hfree => exact .command w ts (State.callerFree_iff.1 hfree).1
    case isFalse => exact background_fetchCase s
  case h_7 a v ts _ =>
    split
    case isTrue hfree => exact .store a v ts (State.callerFree_iff.1 hfree).1
    case isFalse => exact background_fetchCase s
  case h_8 ts _ =>
    split
    case isTrue => exact .engine s.turns (.inl rfl)
    case isFalse hidle =>
      split
      · exact .arming ts (not_not.1 hidle)
      · exact .nothing ts (not_not.1 hidle)

/-! ### Single turns -/

section
variable {s : State} {ts : List Turn}

theorem step_env {m : EnvWord} (hfault : s.fault = none) (hturns : s.turns = .env m :: ts) :
    step s = exec (decodeEnv m) { s with turns := ts } := by
  rw [step_run hfault]
  simp [fetch, hturns, run, decode]

theorem fetch_command {w : CmdWord} (hturns : s.turns = .command w :: ts) (hidle : s.eng = .idle)
    (hready : s.call = .ready) : fetch s = .code (.cmd w) { s with turns := ts } := by
  simp [fetch, hturns, State.callerFree_iff.2 ⟨hidle, hready⟩]

/-- A command that selects no operation is refused by name (30_encoding.md R90, R91). -/
theorem step_command_refused {w : CmdWord} {e : DecodeError} (hfault : s.fault = none)
    (hturns : s.turns = .command w :: ts) (hidle : s.eng = .idle) (hready : s.call = .ready)
    (herror : decode s.cfg (.cmd w) = .error e) : step s = notDecoded e { s with turns := ts } := by
  rw [step_run hfault, fetch_command hturns hidle hready]
  exact run_code_error herror

theorem step_callback {b : CallbackBody} (hfault : s.fault = none) (hturns : s.turns = .callback b :: ts) :
    step s = .next (State.runBody { s with turns := ts } b) := by
  rw [step_run hfault]
  simp [fetch, hturns]

theorem step_called {a : Option Addr7} (hfault : s.fault = none) (hturns : s.turns = .called a :: ts) :
    step s = .next (State.sendAddress { s with turns := ts } a) := by
  rw [step_run hfault]
  simp [fetch, hturns]

theorem CallbackBody.refused_iff {b : CallbackBody} : b.refused = true ↔ b ≠ .plain := by
  cases b <;> simp [CallbackBody.refused]

/-! ### The dispatch of phase `Branch` -/

/-- In Slave role the direction is no part of the word (30_encoding.md R85). -/
theorem dispatchWord_slave (d : Direction) (sr1 : Byte) :
    dispatchWord .slave d sr1 = dispatchWord .slave .write sr1 := rfl

theorem fetchBranch_slave (hrole : s.ctx.role = .slave) :
    fetchBranch s =
      .code (.dispatch (dispatchWord .slave .write (s.regVal .sr1))) (s.readScratch .dispatch .sr1) := by
  simp [fetchBranch, hrole]

theorem fetchBranch_written {d : Direction} (hdir : s.ctx.direction = some d) :
    fetchBranch s =
      .code (.dispatch (dispatchWord s.ctx.role d (s.regVal .sr1))) (s.readScratch .dispatch .sr1) := by
  cases hrole : s.ctx.role with
  | slave => rw [fetchBranch_slave hrole, dispatchWord_slave d]
  | master => simp [fetchBranch, hrole, hdir]

theorem fetchBranch_unwritten (hrole : s.ctx.role = .master) (hdir : s.ctx.direction = none) :
    fetchBranch s = .quiet (raiseFault .unwrittenRead (s.readScratch .dispatch .sr1)) := by
  simp [fetchBranch, hrole, hdir]

theorem step_branch (hfault : s.fault = none) (hturns : s.turns = .engine :: ts) (heng : s.eng = .branch) :
    step s = run (fetchBranch { s with turns := ts }) := by
  rw [step_engine hfault hturns]
  simp [engineTurn, heng]

end

/-- Settles O5: what is fetched is run; and what the single turns fetch. -/
theorem stepRunsDecoded : Obligations.StepRunsDecoded := by
  unfold Obligations.StepRunsDecoded
  intro s hfault
  refine ⟨?code, ?resume, ?quiet, fun m ts => step_env hfault, fun w ts => fetch_command, ?written, ?slave,
    ?unwritten⟩
  case code =>
    intro c u i hfetch hdecode
    rw [step_run hfault, hfetch, run_code_ok hdecode]
  case resume =>
    intro i u hfetch
    rw [step_run hfault, hfetch, run_resume]
  case quiet =>
    intro o hfetch
    rw [step_run hfault, hfetch, run_quiet]
  case written =>
    intro ts d hturns heng hdir
    rw [step_branch hfault hturns heng, fetchBranch_written (s := { s with turns := ts }) hdir, run_code_ok rfl,
      State.regVal_sr1]
  case slave =>
    intro ts hturns heng hrole
    rw [step_branch hfault hturns heng, fetchBranch_slave (s := { s with turns := ts }) hrole, run_code_ok rfl,
      State.regVal_sr1]
  case unwritten =>
    intro ts hturns heng hrole hdir
    rw [step_branch hfault hturns heng, fetchBranch_unwritten (s := { s with turns := ts }) hrole hdir, run_quiet,
      raiseFault_none (by simpa using hfault)]
    exact ⟨_, rfl, rfl⟩

/-! ### The marks -/

/-- The turns due and the marks are as before. -/
structure TurnsMarksKept (s t : State) : Prop where
  turns : t.turns = s.turns
  refusals : t.refusals = s.refusals

theorem Fetched.Carries.imp {P Q : State → Prop} {f : Fetched} (hf : f.Carries P) (h : ∀ u, P u → Q u) :
    f.Carries Q := by
  cases f with
  | quiet o => exact fun t ho => h t (hf t ho)
  | code c u => exact h u hf
  | resume i u => exact h u hf

theorem fetchBranch_turnsMarksKept (s : State) : (fetchBranch s).Carries (TurnsMarksKept s) := by
  have hread : TurnsMarksKept s (s.readScratch .dispatch .sr1) := ⟨by simp, by simp⟩
  unfold fetchBranch
  dsimp only
  split
  · exact hread
  · split
    · exact hread
    · exact everyNext_raiseFault _ fun _ => ⟨hread.turns, hread.refusals⟩

theorem engineTurn_turnsMarksKept (s : State) : (engineTurn s).Carries (TurnsMarksKept s) := by
  unfold engineTurn
  split
  case h_1 => exact everyNext_next.2 (by split <;> exact ⟨rfl, rfl⟩)
  case h_2 => exact fetchBranch_turnsMarksKept s
  case h_3 | h_4 => exact ⟨by simp, by simp⟩

/-- Every mark of the list is kept. -/
def KeepsMarks (ms : List RefusalMark) (s : State) : Prop := ms <+: s.refusals

theorem FetchCase.keepsMarks {s : State} {f : Fetched} (h : FetchCase s f) : f.Carries (KeepsMarks s.refusals) := by
  cases h with
  | engine ts =>
    exact (engineTurn_turnsMarksKept { s with turns := ts }).imp fun u hu => by simp [KeepsMarks, hu.refusals]
  | env | command | arming => exact List.prefix_rfl
  | called | nothing => exact everyNext_next.2 List.prefix_rfl
  | callback b ts =>
    refine everyNext_next.2 ?_
    unfold State.runBody
    split
    · exact List.prefix_append _ _
    · exact List.prefix_rfl
  | store a v ts =>
    simp only [Fetched.Carries, callerStore]
    split
    · exact everyNext_next.2 List.prefix_rfl
    · exact everyNext_fault _

theorem Update.refusals_eq {i : Instr} {u v : State} (h : Update i u v) : v.refusals = u.refusals := by
  cases h with
  | read k r => simp
  | write k r b hr => simp
  | context | engine | caller | bus | memory | fault | emit | send | move => rfl

theorem exec_keepsMarks {ms : List RefusalMark} (i : Instr) (s : State) (hs : KeepsMarks ms s) :
    EveryNext (KeepsMarks ms) (exec i s) :=
  fun _ h => exec_keeps (fun _ _ huv hu => by rwa [KeepsMarks, huv.refusals_eq]) h hs

theorem notDecoded_keepsMarks {ms : List RefusalMark} (e : DecodeError) (s : State) (hs : KeepsMarks ms s) :
    EveryNext (KeepsMarks ms) (notDecoded e s) := by
  cases e with
  | reservedCommand | operandWidth => exact everyNext_next.2 (hs.trans (List.prefix_append _ _))
  | notSelected => exact everyNext_next.2 (by simpa [KeepsMarks] using hs)

/-- Settles O6: a refused command is one that is not decoded, a callback body is run or marked, and no part of a step
removes a mark. -/
theorem refusalsMarkOnly : Obligations.RefusalsMarkOnly := by
  unfold Obligations.RefusalsMarkOnly
  refine ⟨?command, ?callback, ?kept⟩
  case command =>
    intro s w ts hfault hidle hready hturns
    exact ⟨fun op => step_command_refused hfault hturns hidle hready,
      step_command_refused hfault hturns hidle hready⟩
  case callback =>
    intro s b ts hfault hturns
    rw [step_callback hfault hturns]
    refine ⟨fun hplain => ?_, fun hbody => ?_⟩
    · subst hplain
      rfl
    · rw [State.runBody, if_pos (CallbackBody.refused_iff.2 hbody)]
      rfl
  case kept => exact fun s => everyNext_step (fetch_fetchCase s).keepsMarks exec_keepsMarks notDecoded_keepsMarks

end Sys2Proof.Machine
end

section
/-!
The order of the phases inside a service step (60_exceptions.md R220 to R222, R228), the caller's waiting (R223), and
service steps of several copies (R233).
-/

namespace Sys2Proof.Machine

/-! ### The arms -/

/-- `call.phase` is `c`, and `eng.phase` still is `p`, as where the arm faults, or the arm is done and `EpiErr` comes
next. -/
def ArmDone (c : CallPhase) (p : EngPhase) (t : State) : Prop := t.call = c ∧ (t.eng = p ∨ t.eng = .epiErr)

@[simp] theorem armDone_iff {c : CallPhase} {p : EngPhase} {t : State} :
    ArmDone c p t ↔ t.call = c ∧ (t.eng = p ∨ t.eng = .epiErr) := Iff.rfl

section
variable {c : CallPhase} {p : EngPhase} {s : State} (hcall : s.call = c) (heng : s.eng = p)
include hcall heng

theorem execMStart_armDone : EveryNext (ArmDone c p) (execMStart s) := by
  refine everyNext_needField (by simp [hcall, heng]) fun peer _ => ?_
  refine everyNext_needField (by simp [hcall, heng]) fun d _ => ?_
  simp [hcall]

theorem mTxCompletion_armDone (length : Nat) : EveryNext (ArmDone c p) (mTxCompletion length s) := by
  unfold mTxCompletion
  split
  · exact everyNext_needField (by simp [hcall, heng]) fun base _ => by simp [hcall]
  · simp [hcall]

theorem execMTx_armDone : EveryNext (ArmDone c p) (execMTx s) := by
  refine everyNext_needField (by simp [hcall, heng]) fun length _ => ?_
  split
  · refine everyNext_needField (by simp [hcall, heng]) fun base _ => ?_
    exact everyNext_memRead (by simp [hcall, heng]) fun _ =>
      mTxCompletion_armDone (by simp [hcall]) (by simp [heng]) length
  · exact mTxCompletion_armDone hcall heng length

theorem mRxCompletion_armDone (length : Nat) : EveryNext (ArmDone c p) (mRxCompletion length s) := by
  unfold mRxCompletion
  split
  · exact everyNext_needField (by simp [hcall, heng]) fun base _ => by simp [mRxEnd, hcall]
  · split <;> simp [mRxEnd, hcall]

theorem execMRx_armDone : EveryNext (ArmDone c p) (execMRx s) := by
  refine everyNext_needField (by simp [hcall, heng]) fun length _ => ?_
  split
  · refine everyNext_needField (by simp [hcall, heng]) fun base _ => ?_
    exact everyNext_memWrite (by simp [hcall, heng]) fun _ =>
      mRxCompletion_armDone (by simp [hcall]) (by simp [heng]) length
  · exact mRxCompletion_armDone (by simp [hcall]) (by simp [heng]) length

theorem execSRx_armDone : EveryNext (ArmDone c p) (execSRx s) := by
  unfold execSRx
  dsimp only
  split
  · refine everyNext_needField (by simp [hcall, heng]) fun base _ => ?_
    refine everyNext_memWrite (by simp [hcall, heng]) fun _ => ?_
    rw [everyNext_next]
    split <;> simp [hcall]
  · simp [hcall]

theorem execSTx_armDone : EveryNext (ArmDone c p) (execSTx s) := by
  unfold execSTx
  dsimp only
  split
  · refine everyNext_needField (by simp [hcall, heng]) fun base _ => ?_
    refine everyNext_memRead (by simp [hcall, heng]) fun _ => ?_
    rw [everyNext_next]
    split <;> simp [hcall]
  · simp [hcall]

theorem exec_arm_armDone (a : Arm) : EveryNext (ArmDone c p) (exec a.instr s) := by
  cases a with
  | mStart => exact execMStart_armDone hcall heng
  | mTx => exact execMTx_armDone hcall heng
  | mRx => exact execMRx_armDone hcall heng
  | sRx => exact execSRx_armDone hcall heng
  | sTx => exact execSTx_armDone hcall heng
  | mAddr | sAddr => exact everyNext_next.2 ⟨by simpa using hcall, .inr rfl⟩
  | mTxUnexpected | mTxIdle | mRxIdle | sIdle => exact everyNext_next.2 ⟨hcall, .inr rfl⟩

end

/-! ### The engine's turn inside a service step -/

/-- `call.phase` is as before, and `eng.phase` stays or goes on to the next phase (60_exceptions.md R220). -/
structure PhaseGoesOn (s t : State) : Prop where
  call : t.call = s.call
  eng : t.eng = s.eng ∨ (s.eng = .branch ∧ t.eng = .epiErr) ∨ (s.eng = .epiErr ∧ t.eng = .epiStop) ∨
    (s.eng = .epiStop ∧ t.eng = .idle)

section
variable {s : State}

/-- Phase `Branch`: the arm selected, or the fault of an unwritten direction. -/
theorem run_fetchBranch_goesOn (heng : s.eng = .branch) : EveryNext (PhaseGoesOn s) (run (fetchBranch s)) := by
  have harm (w : DispatchWord) :
      EveryNext (PhaseGoesOn s) (run (.code (.dispatch w) (s.readScratch .dispatch .sr1))) := by
    intro t h
    rw [run_code_ok rfl] at h
    obtain ⟨hcall, hphase⟩ := exec_arm_armDone (c := s.call) (p := s.eng) (by simp) (by simp) (dispatchArm w) t h
    exact ⟨hcall, hphase.imp_right fun hdone => .inl ⟨heng, hdone⟩⟩
  unfold fetchBranch
  dsimp only
  split
  · exact harm _
  · split
    · exact harm _
    · exact everyNext_raiseFault _ fun _ => ⟨by simp, by simp⟩

/-- Phase `EpiErr`: the arm runs or is skipped, and `EpiStop` comes next (43_epilogue.md R186). -/
theorem run_epiErr_goesOn (heng : s.eng = .epiErr) (e : Nibble) :
    EveryNext (PhaseGoesOn s) (run (.code (.epiErr e) (s.afterRead .epiErr .sr2))) := by
  simp only [run, decode, decodeEpiErr]
  split_ifs
  · exact everyNext_next.2 ⟨by simp, by simp [State.skipPhase, heng]⟩
  · exact everyNext_next.2 ⟨by simp, by simp [heng]⟩

/-- Phase `EpiStop`: the arm runs or is skipped, and the service step returns (60_exceptions.md R222). -/
theorem run_epiStop_goesOn (heng : s.eng = .epiStop) (v : Byte) :
    EveryNext (PhaseGoesOn s) (run (.code (.epiStop v) (s.readScratch .epiStop .sr1))) := by
  simp only [run, decode, decodeEpiStop]
  split_ifs
  · exact everyNext_next.2 ⟨by simp, by simp [heng]⟩
  · exact everyNext_next.2 ⟨by simp, by simp [State.skipPhase, heng]⟩

theorem run_engineTurn_goesOn (hservice : s.eng ≠ .idle) : EveryNext (PhaseGoesOn s) (run (engineTurn s)) := by
  unfold engineTurn
  split
  case h_1 hidle => exact absurd hidle hservice
  case h_2 heng => exact run_fetchBranch_goesOn heng
  case h_3 heng => exact run_epiErr_goesOn heng _
  case h_4 heng => exact run_epiStop_goesOn heng _

end

theorem run_engineTurn_turns (s : State) : EveryNext (fun t => t.turns = s.turns) (run (engineTurn s)) :=
  everyNext_run ((engineTurn_turnsMarksKept s).imp fun _ hu => hu.turns) (fun _ _ hu _ h => (exec_turns h).trans hu)
    (fun _ _ hu _ h => (notDecoded_turns h).trans hu)

/-! ### A step inside a service step -/

/-- The turn is one of the caller's: a command, a phase of one, or a store. -/
def Turn.ofCaller (u : Turn) : Prop := u = .caller ∨ (∃ w, u = .command w) ∨ ∃ a v, u = .store a v

section
variable {s : State} {f : Fetched} (hf : FetchCase s f) (hservice : s.eng ≠ .idle)
include hf hservice

/-- The engine's turn goes on; the turns of the others leave both phases. -/
theorem FetchCase.goesOn : EveryNext (PhaseGoesOn s) (run f) := by
  cases hf with
  | engine ts =>
    intro t h
    obtain ⟨hcall, heng⟩ := run_engineTurn_goesOn (s := { s with turns := ts }) hservice t h
    exact ⟨hcall, heng⟩
  | env m ts =>
    obtain ⟨g, e, w, hexec, -⟩ := exec_envMove m { s with turns := ts }
    rw [run_code_ok rfl, hexec, everyNext_next]
    exact ⟨rfl, .inl rfl⟩
  | called => exact everyNext_next.2 ⟨rfl, .inl rfl⟩
  | callback b ts =>
    refine everyNext_next.2 ?_
    unfold State.runBody
    split <;> exact ⟨rfl, .inl rfl⟩
  | command _ _ hidle | store _ _ _ hidle | arming _ hidle | nothing _ hidle => exact absurd hidle hservice

/-- Where the next turn is the caller's it stays, since the engine goes on in its place (60_exceptions.md R223). -/
theorem FetchCase.callerWaits {u : Turn} {rest : List Turn} (hturns : s.turns = u :: rest) (hcaller : u.ofCaller) :
    EveryNext (fun t => t.turns = s.turns) (run f) := by
  have hother (v : Turn) (ts : List Turn) (hv : ¬ v.ofCaller) : s.turns ≠ v :: ts := by
    intro hts
    obtain ⟨rfl, -⟩ := List.cons.inj (hturns.symm.trans hts)
    exact hv hcaller
  cases hf with
  | engine ts hts =>
    obtain rfl | hts := hts
    · exact run_engineTurn_turns s
    · exact absurd hts (hother _ _ (by simp [Turn.ofCaller]))
  | env _ _ hts | called _ _ hts | callback _ _ hts => exact absurd hts (hother _ _ (by simp [Turn.ofCaller]))
  | command _ _ hidle | store _ _ _ hidle | arming _ hidle | nothing _ hidle => exact absurd hidle hservice

end

/-- Settles O8: inside a service step a turn is the engine's or one that leaves the phases, and the engine's turn stands
in for one of the caller's, which stays. -/
theorem serviceOrder : Obligations.ServiceOrder := by
  unfold Obligations.ServiceOrder
  intro s t h hservice
  rw [step_run (fault_none_of_step h)] at h
  have hf := fetch_fetchCase s
  obtain ⟨hcall, heng⟩ := hf.goesOn hservice t h
  exact ⟨hcall, fun u ts hturns hcaller => hf.callerWaits hservice hturns hcaller t h, heng⟩

/-! ### Several copies -/

/-- A step of copy `i` answers with that copy stepped, where its next turn is its environment's or no other copy is
inside a service step. -/
theorem stepBus_next {buses buses' : List State} {i : Nat} (h : stepBus buses i = some (.next buses')) :
    ∃ s t, buses[i]? = some s ∧ step s = .next t ∧ buses' = buses.set i t ∧
      (s.envIsNext = true ∨ othersIdle buses i = true) := by
  unfold stepBus at h
  split at h
  case h_1 => cases h
  case h_2 s hs =>
    split at h
    case isFalse => cases h
    case isTrue hmay =>
      cases hstep : step s with
      | next t =>
        rw [hstep] at h
        cases h
        exact ⟨s, t, hs, hstep, rfl, (Bool.or_eq_true _ _).mp hmay⟩
      | fault r =>
        rw [hstep] at h
        cases h
      | refused r =>
        rw [hstep] at h
        cases h

/-- An environment's turn neither begins nor ends a service step. -/
theorem step_envIsNext_eng {s t : State} (h : step s = .next t) (henv : s.envIsNext = true) : t.eng = s.eng := by
  have hfault := fault_none_of_step h
  unfold State.envIsNext at henv
  split at henv
  case h_1 m ts hturns =>
    obtain ⟨g, e, w, hexec, -⟩ := exec_envMove m { s with turns := ts }
    rw [step_env hfault hturns, hexec] at h
    cases h
    rfl
  case h_2 a ts hturns =>
    rw [step_called hfault hturns] at h
    cases h
    rfl
  case h_3 => cases henv

theorem othersIdle_iff {buses : List State} {i : Nat} :
    othersIdle buses i = true ↔ ∀ j s, j ≠ i → buses[j]? = some s → s.eng = .idle := by
  simp only [othersIdle, List.all_eq_true, beq_iff_eq, List.mem_eraseIdx_iff_getElem?]
  constructor
  · exact fun h j s hj hs => h s ⟨j, hj, hs⟩
  · rintro h s ⟨j, hj, hs⟩
    exact h j s hj hs

/-- Copies that are in the same phases as before are in service as before. -/
theorem OneInService.set_of_eng_eq {buses : List State} {i : Nat} {s t : State} (hone : OneInService buses)
    (hs : buses[i]? = some s) (heng : t.eng = s.eng) : OneInService (buses.set i t) := by
  have hbefore (j : Nat) (u : State) (hu : (buses.set i t)[j]? = some u) :
      ∃ u', buses[j]? = some u' ∧ u.eng = u'.eng := by
    rw [List.getElem?_set] at hu
    split_ifs at hu with hij
    · cases hu
      exact ⟨s, hij ▸ hs, heng⟩
    · exact ⟨u, hu, rfl⟩
  intro j k u v hu hv hju hkv
  obtain ⟨u', hu', hueng⟩ := hbefore j u hu
  obtain ⟨v', hv', hveng⟩ := hbefore k v hv
  exact hone j k u' v' hu' hv' (hueng ▸ hju) (hveng ▸ hkv)

/-- Where every other copy is outside its service step, whatever copy `i` becomes is the only one inside one. -/
theorem oneInService_set_of_othersIdle {buses : List State} {i : Nat} (h : othersIdle buses i = true) (t : State) :
    OneInService (buses.set i t) := by
  have honly (j : Nat) (u : State) (hu : (buses.set i t)[j]? = some u) (hservice : u.eng ≠ .idle) : j = i := by
    by_contra hj
    rw [List.getElem?_set_ne (Ne.symm hj)] at hu
    exact hservice (othersIdle_iff.1 h j u hj hu)
  exact fun j k u v hu hv hju hkv => (honly j u hu hju).trans (honly k v hv hkv).symm

/-- Settles O59: a copy's environment leaves its phase, and any other step is taken only where every other copy is
outside its service step. -/
theorem oneServiceAtATime : Obligations.OneServiceAtATime := by
  unfold Obligations.OneServiceAtATime
  intro buses buses' i hone h
  obtain ⟨s, t, hs, hstep, rfl, henv | hidle⟩ := stepBus_next h
  · exact ⟨hone.set_of_eng_eq hs (step_envIsNext_eng hstep henv), fun j hj => List.getElem?_set_ne hj.symm⟩
  · exact ⟨oneInService_set_of_othersIdle hidle t, fun j hj => List.getElem?_set_ne hj.symm⟩

end Sys2Proof.Machine
end

section
/-!
Booting (70_reset_and_hazards.md R242, R243): what `INIT` and `CFG_SLAVE` add to a quiet block, from any state they may
be run in.
-/

namespace Sys2Proof.Machine

/-- No agent is at work at reset, and no flag is up (10_state.md R51, R52). -/
theorem State.resetWith_quiet (c : Config) : Quiet (State.resetWith c) := ⟨rfl, rfl, rfl, rfl, rfl, rfl⟩

/-- A block stays quiet under what leaves the phases, the fault, `SR2`, `SR3` and the absence of flags in `SR1`. -/
theorem Quiet.of_kept {s t : State} (h : Quiet s) (heng : t.eng = s.eng) (hcall : t.call = s.call)
    (hsr1 : t.regs.sr1 = 0#8) (hsr2 : t.regs.sr2 = s.regs.sr2) (hsr3 : t.regs.sr3 = s.regs.sr3)
    (hfault : t.fault = s.fault) : Quiet t :=
  ⟨heng.trans h.eng, hcall.trans h.call, hsr1, hsr2.trans h.sr2, hsr3.trans h.sr3, hfault.trans h.fault⟩

/-- A write of `CR2` raises no flag: where `SR1` holds none, clearing `STOPF` leaves it so (10_state.md R41). -/
theorem sr1AfterCr2_eq_zero {s : State} (h : s.regs.sr1 = 0#8) : sr1AfterCr2 s = 0#8 := by
  unfold sr1AfterCr2
  rw [h]
  split <;> rfl

/-- From any quiet block `INIT` reaches `BootedMaster`: it sets its registers and leaves the flags and both phases. -/
theorem exec_init_bootedMaster {s : State} (hquiet : Quiet s) : ∃ t, exec .init s = .next t ∧ BootedMaster t := by
  obtain ⟨t, hexec, hregs, -, -, -, heng, hcall, -, -, hcfg, -, hfault, -⟩ := initResult s
  have hinit : Initialised t := by
    constructor <;> simp [hregs, hcfg, Regs.pe]
  have hquiet' : Quiet t := by
    apply hquiet.of_kept heng hcall (hfault := hfault) <;> rw [hregs]
    exact hquiet.sr1
  exact ⟨t, hexec, hinit, hquiet'⟩

/-- From `BootedMaster` `CFG_SLAVE` reaches `Booted`: of the registers `INIT` sets it writes only `OAR`, and its `CR2`
write raises no flag. -/
theorem exec_cfgSlave_booted {s : State} (h : BootedMaster s) (a : Addr7) (buffer capacity : Nat) :
    ∃ t, exec (.cfgSlave a buffer capacity) s = .next t ∧ Booted a buffer capacity t := by
  obtain ⟨⟨hpe, hitr, hfreqr, hccr, htriser⟩, hquiet⟩ := h
  obtain ⟨t, hexec, hregs, hctx, -, -, heng, hcall, -, -, hcfg, -, hfault, -⟩ := cfgSlaveResult s a buffer capacity
  have hinit : Initialised t := by
    constructor <;> simp only [hregs, hcfg]
    exacts [hpe, hitr, hfreqr, hccr, htriser]
  have hslave : ConfiguredAs a buffer capacity t := by
    constructor <;> simp [hregs, hctx, ownAddrByte, Regs.ack, getElem_putBit]
  have hquiet' : Quiet t := by
    apply hquiet.of_kept heng hcall (hfault := hfault) <;> rw [hregs]
    exact sr1AfterCr2_eq_zero hquiet.sr1
  exact ⟨t, hexec, hinit, hslave, hquiet'⟩

/-- Settles O60: reset is quiet, `INIT` boots a quiet block, and `CFG_SLAVE` makes it the slave asked for. -/
theorem bootReached : Obligations.BootReached := by
  unfold Obligations.BootReached
  intro c a buffer capacity
  obtain ⟨t, hinit, hmaster⟩ := exec_init_bootedMaster (State.resetWith_quiet c)
  obtain ⟨u, hslave, hbooted⟩ := exec_cfgSlave_booted hmaster a buffer capacity
  exact ⟨t, u, hinit, hmaster, hslave, hbooted⟩

end Sys2Proof.Machine
end

section
/-!
Interrupt pending (10_state.md R46): the model's predicate over the named flags, read off the registers bit by bit.
-/

namespace Sys2Proof.Machine

/-- The mask of the error flags is `SR2` modulo 16, the value of the field `SR2[3:0]` (10_state.md R38). -/
theorem Regs.toNat_sr2_and_errorBits (g : Regs) : (g.sr2 &&& 0x0F#8).toNat = g.errMask.toNat := by
  rw [Regs.errMask, BitVec.toNat_and, BitVec.extractLsb'_toNat, Nat.shiftRight_zero]
  exact Nat.and_two_pow_sub_one_eq_mod g.sr2.toNat 4

/-- An error is pending exactly where one of the four error bits of `SR2` is set (10_state.md R46). -/
theorem Regs.errPending_iff (g : Regs) : g.errPending = true ↔ g.sr2 &&& 0x0F#8 ≠ 0#8 := by
  have hzero : g.errMask = 0#4 ↔ g.sr2 &&& 0x0F#8 = 0#8 := by
    rw [← BitVec.toNat_inj, ← BitVec.toNat_inj, Regs.toNat_sr2_and_errorBits, BitVec.toNat_ofNat, BitVec.toNat_ofNat]
  rw [Regs.errPending, bne_iff_ne, ne_eq, hzero]

/-- Settles O13: the events and the buffer flags are named bits already; the errors are the one category the model
reads as a field. -/
theorem interruptPending : Obligations.InterruptPending := by
  unfold Obligations.InterruptPending
  intro g
  exact ⟨g.evt, g.buf, g.errPending, rfl, rfl, g.errPending_iff, rfl⟩

end Sys2Proof.Machine
end
